-- ==== Sys2Proof/Word.lean ====
section
/-!
DEFINITION. The word types of LCDSEQ-v7 (R10): every value of the block is an unsigned number of a stated width.
-/

namespace Sys2Proof

/-- A payload, an HD44780 byte, a command code (R110, R120, R125). -/
abbrev Byte := BitVec 8

/-- Half a byte, the unit the HD44780 4-bit interface takes (R14, R86). -/
abbrev Nibble := BitVec 4

/-- An argument word, the DATA word, a host-memory address (R80, R110). -/
abbrev Word := BitVec 32

end Sys2Proof
end

