-- ==== Sys2Proof/Config.lean ====
section
/-!
DEFINITION. What an implementation fixes (the build-time parameters of R8) and the free values of the model: the answers of
the timebase and of the I2C transport, which are inputs to the block's step (R5, R12).
-/

namespace Sys2Proof

/-- `TB_RES` (R8, R9): the unit of a tick. -/
inductive TbRes where
  | us
  | ms
  deriving DecidableEq, Repr, Inhabited

/-- `PORT_ENDIAN` (R8, R88): the byte order of the optional register port. -/
inductive Endian where
  | little
  | big
  deriving DecidableEq, Repr, Inhabited

/-- The parameters R8 leaves open. They are fixed for the lifetime of an instance (R9): a field of State that no step writes, so
that a statement about every state is a statement about every build. -/
structure Build where
  /-- `TB_RES`. -/
  tbRes : TbRes
  /-- `TICK_BITS`: a tick and an elapsed duration are taken modulo `2 ^ tickBits`. -/
  tickBits : Nat
  /-- `I2C_MAX_RETRIES`, passed to every `i2c.write`. -/
  i2cMaxRetries : Nat
  /-- `PREEMPT_TOGGLES`. -/
  preemptToggles : Bool
  /-- `PORT_ENDIAN`. -/
  portEndian : Endian
  deriving DecidableEq, Repr, Inhabited

/-- What the timebase does at one call (R360, R361): its count has run on by some ticks since the call before and it answers, or
it fails. Any number of ticks, so any answer the monotone assumption of R361 admits. -/
inductive TimebaseEvent where
  | runs (ticks : Nat)
  | fails
  deriving DecidableEq, Repr, Inhabited

/-- The results of `i2c.write` (R362); `other` stands for every further value a transport may have (R342). -/
inductive I2cResult where
  | ok
  | busy
  | invalidAddress
  | notResponding
  | malformed
  | other (code : Nat)
  deriving DecidableEq, Repr, Inhabited

/-- The build of the instance that State.reset describes. No body: nothing in Lean knows it (log entry 2). -/
opaque Config.build : Build

/-- FREE VALUE: what the timebase does at its n-th call when State scripts nothing (R361; log entry 3). -/
opaque Config.freeTimebase : Nat → TimebaseEvent

/-- FREE VALUE: what the transport answers at its n-th call when State scripts nothing (R362; log entry 3). -/
opaque Config.freeI2c : Nat → I2cResult

end Sys2Proof
end

