-- ==== Sys2Proof/Syntax.lean ====
section
/-!
DEFINITION. The instructions: one constructor per row of spec/opcode_table.json. 16 host commands (R112), 8 HD44780 byte forms
(R125 to R132) and 5 payload forms (R120 to R123, R244). Operands are the fields of R113 and of the table.
-/

namespace Sys2Proof

/-- The ten fields of DisplayConfiguration (R30 to R38), which are also the ten argument fields of `INIT` (R113, R240). -/
structure DisplayConfig where
  /-- `cfg_i2c_addr[6:0]` (R30). -/
  i2cAddr : BitVec 7
  /-- `cfg_two_lines` (R32). -/
  twoLines : Bool
  /-- `cfg_font_5x10` (R33). -/
  font5x10 : Bool
  /-- `cfg_entry_mode[1:0]` (R31): bit 1 is I/D, bit 0 is S. -/
  entryMode : BitVec 2
  /-- `cfg_backlight` (R34). -/
  backlight : Bool
  /-- `cfg_cursor_visible` (R35). -/
  cursorVisible : Bool
  /-- `cfg_cursor_blink` (R36). -/
  cursorBlink : Bool
  /-- `cfg_display_enabled` (R37). -/
  displayEnabled : Bool
  /-- `cfg_tb_id[15:0]` (R38). -/
  tbId : BitVec 16
  /-- `cfg_i2c_id[15:0]` (R38). -/
  i2cId : BitVec 16
  deriving DecidableEq, Repr

/-- `a_dir` and `p_dir` (R43, R113): 0 is left, 1 is right. -/
inductive Direction where
  | left
  | right
  deriving DecidableEq, Repr

/-- The instructions, in the table's order. -/
inductive Instr where
  | init (a : DisplayConfig)
  | reset
  | process
  | getState
  | readDiag
  | clear
  | home
  | setDisplayOnOff (flag : Bool)
  | setCursorVisible (flag : Bool)
  | setBlinkingCursor (flag : Bool)
  | setBacklight (flag : Bool)
  | setEntryMode (mode : BitVec 2)
  | moveCursorToCoord (line column : Byte)
  | moveRelative (dir : Direction)
  | shiftDisplay (dir : Direction)
  | print (buf : Word) (len : BitVec 16)
  | hdClear
  | hdHome
  | hdEntryModeSet (id s : Bool)
  | hdDisplayControl (d c b : Bool)
  | hdCursorShift (sc rl : Bool)
  | hdFunctionSet (dl n f : Bool)
  | hdSetDdramAddr (addr : BitVec 7)
  | hdData (data : Byte)
  | payRaise (nib : Nibble) (bl rs : Bool)
  | payFall (nib : Nibble) (bl rs : Bool)
  | payBacklight (bl : Bool)
  | payProbeRaise (bl : Bool)
  | payProbeFall (bl : Bool)
  deriving DecidableEq, Repr

/-- A host transaction's inputs (R110). -/
structure Txn where
  cmd : Byte
  arg0 : Word
  arg1 : Word
  deriving DecidableEq, Repr

/-- An encoded instruction, with the format it stands in. The three formats of the opcode table share their 8-bit patterns, and
a payload's form is known by its place in the command sequence (R134), so the bits alone do not say the row. -/
inductive Code where
  /-- A host transaction (R110). -/
  | host (t : Txn)
  /-- A byte sent with RS = 0 (R125). -/
  | hdInstruction (b : Byte)
  /-- A byte sent with RS = 1 (R132). -/
  | hdDataByte (b : Byte)
  /-- A payload of a nibble transfer (R121). -/
  | nibblePayload (p : Byte)
  /-- A payload of a bootstrap probe (R244, R247). -/
  | probePayload (p : Byte)
  /-- The payload of the BACKLIGHT command (R123). -/
  | backlightPayload (p : Byte)
  deriving DecidableEq, Repr

end Sys2Proof
end

