-- ==== Sys2Proof/WellFormed.lean ====
section
/-!
DEFINITION. The checks on instructions as terms. A host command has none: every value of every argument field is an instruction
(R113; an illegal operand is answered with a status). An output form is checked against the encodings the block never emits
(R131, R133), which a checker may use on an output.
-/

namespace Sys2Proof

/-- The check of one instruction; a Bool, so that decide runs it. -/
def wellFormed : Instr → Bool
  /- R130, R133: with the data-length bit set only PROBE_BYTE 0x30 is sent, and 0x2C cannot occur. -/
  | .hdFunctionSet dl n f => if dl then !n && !f else !(n && f)
  /- R131, R94: an address of one of the two DDRAM maps. -/
  | .hdSetDdramAddr addr => decide (addr.toNat ≤ 0x67)
  | .init _ | .reset | .process | .getState | .readDiag | .clear | .home => true
  | .setDisplayOnOff _ | .setCursorVisible _ | .setBlinkingCursor _ | .setBacklight _ | .setEntryMode _ => true
  | .moveCursorToCoord _ _ | .moveRelative _ | .shiftDisplay _ | .print _ _ => true
  | .hdClear | .hdHome | .hdEntryModeSet _ _ | .hdDisplayControl _ _ _ | .hdCursorShift _ _ | .hdData _ => true
  | .payRaise _ _ _ | .payFall _ _ _ | .payBacklight _ | .payProbeRaise _ | .payProbeFall _ => true

/-- The check of a build (R391): `2 ^ TICK_BITS` is above every threshold, of which `T_BOOT` is the largest. -/
def buildLegal (b : Build) : Bool :=
  match b.tbRes with
  | .us => decide (40000 < 2 ^ b.tickBits)
  | .ms => decide (40 < 2 ^ b.tickBits)

end Sys2Proof
end

