-- ==== Sys2Proof/Decode.lean ====
section
/-!
DEFINITION. The encodings (R110 to R133): the decoder, total on every Code, and after it the encoder, both written from the
tables of 30_encoding.md.
-/

namespace Sys2Proof

/-! ## The bytes of the three formats -/

/-- A 1-bit field as a byte with the bit in place 0. -/
def flagByte (b : Bool) : Byte := if b then 1 else 0

/-- R121, R120: the payload `{nib[3:0], bl, en, 0, rs}`; bit 1 (RW) is 0 by construction (R122). -/
def payloadByte (nib : Nibble) (bl en rs : Bool) : Byte :=
  (nib.setWidth 8 <<< 4) ||| (flagByte bl <<< 3) ||| (flagByte en <<< 2) ||| flagByte rs

/-- R123: the payload of the BACKLIGHT command, `bl << 3`. -/
def backlightByte (bl : Bool) : Byte := flagByte bl <<< 3

/-- R126: CLEAR is exactly 0x01. -/
def clearByte : Byte := 0x01

/-- R126: HOME is exactly 0x02. -/
def homeByte : Byte := 0x02

/-- R127: `0x04 | (id << 1) | s`. -/
def entryModeByte (id s : Bool) : Byte := 0x04 ||| (flagByte id <<< 1) ||| flagByte s

/-- R128: `0x08 | (d << 2) | (c << 1) | b`. -/
def displayControlByte (d c b : Bool) : Byte := 0x08 ||| (flagByte d <<< 2) ||| (flagByte c <<< 1) ||| flagByte b

/-- R129: `0x10 | (sc << 3) | (rl << 2)`. -/
def cursorShiftByte (sc rl : Bool) : Byte := 0x10 ||| (flagByte sc <<< 3) ||| (flagByte rl <<< 2)

/-- R130: `0x20 | (dl << 4) | (n << 3) | (f << 2)`. -/
def functionSetByte (dl n f : Bool) : Byte := 0x20 ||| (flagByte dl <<< 4) ||| (flagByte n <<< 3) ||| (flagByte f <<< 2)

/-- R131: `0x80 | addr[6:0]`. -/
def setDdramAddrByte (addr : BitVec 7) : Byte := 0x80 ||| addr.setWidth 8

/-- `PROBE_BYTE` (R8, R244): 0x30, of which only the high nibble is sent. -/
def probeByte : Byte := functionSetByte true false false

/-- `SELECT4_BYTE` (R8, R248): 0x20. -/
def select4Byte : Byte := functionSetByte false false false

/-- The 1-bit argument of a direction (R113): 0 is left, 1 is right. -/
def Direction.ofBit (b : Bool) : Direction := if b then .right else .left

/-- The bit of a direction (R43). -/
def Direction.bit : Direction → Bool
  | .left => false
  | .right => true

/-! ## The decoder -/

/-- The argument fields of `INIT` (R113). -/
def initArgs (arg0 arg1 : Word) : DisplayConfig where
  i2cAddr := arg0.extractLsb' 0 7
  twoLines := arg0.getLsbD 7
  font5x10 := arg0.getLsbD 8
  entryMode := arg0.extractLsb' 9 2
  backlight := arg0.getLsbD 11
  cursorVisible := arg0.getLsbD 12
  cursorBlink := arg0.getLsbD 13
  displayEnabled := arg0.getLsbD 14
  tbId := arg1.extractLsb' 0 16
  i2cId := arg1.extractLsb' 16 16

/-- The command-code map (R112) with the argument fields of R113. An unassigned code reads as none (R115); argument bits that no
field takes are ignored (R114). -/
def decodeHost (t : Txn) : Option Instr :=
  match t.cmd.toNat with
  | 0x01 => some (.init (initArgs t.arg0 t.arg1))
  | 0x02 => some .reset
  | 0x03 => some .process
  | 0x04 => some .getState
  | 0x05 => some .readDiag
  | 0x10 => some .clear
  | 0x11 => some .home
  | 0x12 => some (.setDisplayOnOff (t.arg0.getLsbD 0))
  | 0x13 => some (.setCursorVisible (t.arg0.getLsbD 0))
  | 0x14 => some (.setBlinkingCursor (t.arg0.getLsbD 0))
  | 0x15 => some (.setBacklight (t.arg0.getLsbD 0))
  | 0x16 => some (.setEntryMode (t.arg0.extractLsb' 0 2))
  | 0x17 => some (.moveCursorToCoord (t.arg0.extractLsb' 0 8) (t.arg0.extractLsb' 8 8))
  | 0x18 => some (.moveRelative (.ofBit (t.arg0.getLsbD 0)))
  | 0x19 => some (.shiftDisplay (.ofBit (t.arg0.getLsbD 0)))
  | 0x1A => some (.print t.arg0 (t.arg1.extractLsb' 0 16))
  | _ => none

/-- The bytes sent with RS = 0 (R125 to R131). Every other byte is one the block never emits with RS = 0 (R133). -/
def decodeHdInstruction (b : Byte) : Option Instr :=
  if b = 0x01 then some .hdClear
  else if b = 0x02 then some .hdHome
  else if b &&& 0xFC = 0x04 then some (.hdEntryModeSet (b.getLsbD 1) (b.getLsbD 0))
  else if b &&& 0xF8 = 0x08 then some (.hdDisplayControl (b.getLsbD 2) (b.getLsbD 1) (b.getLsbD 0))
  else if b &&& 0xF3 = 0x10 then some (.hdCursorShift (b.getLsbD 3) (b.getLsbD 2))
  else if b &&& 0xE3 = 0x20 then some (.hdFunctionSet (b.getLsbD 4) (b.getLsbD 3) (b.getLsbD 2))
  else if b &&& 0x80 = 0x80 then some (.hdSetDdramAddr (b.extractLsb' 0 7))
  else none

/-- A payload of a nibble transfer (R120, R121): EN tells a raise from a fall, and RW = 1 is never produced (R122). -/
def decodeNibblePayload (p : Byte) : Option Instr :=
  if p.getLsbD 1 then none
  else if p.getLsbD 2 then some (.payRaise (p.extractLsb' 4 4) (p.getLsbD 3) (p.getLsbD 0))
  else some (.payFall (p.extractLsb' 4 4) (p.getLsbD 3) (p.getLsbD 0))

/-- A payload of a probe (R244, R247): nibble 0x3, RS = 0. -/
def decodeProbePayload (p : Byte) : Option Instr :=
  if p &&& 0xF7 = 0x34 then some (.payProbeRaise (p.getLsbD 3))
  else if p &&& 0xF7 = 0x30 then some (.payProbeFall (p.getLsbD 3))
  else none

/-- The payload of the BACKLIGHT command (R123). -/
def decodeBacklightPayload (p : Byte) : Option Instr :=
  if p &&& 0xF7 = 0x00 then some (.payBacklight (p.getLsbD 3)) else none

/-- The decoder, total on every Code (R116). -/
def decode : Code → Option Instr
  | .host t => decodeHost t
  | .hdInstruction b => decodeHdInstruction b
  | .hdDataByte b => some (.hdData b)
  | .nibblePayload p => decodeNibblePayload p
  | .probePayload p => decodeProbePayload p
  | .backlightPayload p => decodeBacklightPayload p

/-! ## The encoder -/

/-- The argument word ARG0 of `INIT` (R113). -/
def initArg0 (a : DisplayConfig) : Word :=
  a.i2cAddr.setWidth 32 ||| ((flagByte a.twoLines).setWidth 32 <<< 7) ||| ((flagByte a.font5x10).setWidth 32 <<< 8)
    ||| (a.entryMode.setWidth 32 <<< 9) ||| ((flagByte a.backlight).setWidth 32 <<< 11)
    ||| ((flagByte a.cursorVisible).setWidth 32 <<< 12) ||| ((flagByte a.cursorBlink).setWidth 32 <<< 13)
    ||| ((flagByte a.displayEnabled).setWidth 32 <<< 14)

/-- The argument word ARG1 of `INIT` (R113). -/
def initArg1 (a : DisplayConfig) : Word := a.tbId.setWidth 32 ||| (a.i2cId.setWidth 32 <<< 16)

/-- A host transaction whose only argument is a 1-bit flag in ARG0[0] (R113). -/
def flagTxn (cmd : Byte) (b : Bool) : Code := .host ⟨cmd, (flagByte b).setWidth 32, 0⟩

/-- The encoder: the transaction, byte or payload of an instruction, unassigned argument bits 0. -/
def encode : Instr → Code
  | .init a => .host ⟨0x01, initArg0 a, initArg1 a⟩
  | .reset => .host ⟨0x02, 0, 0⟩
  | .process => .host ⟨0x03, 0, 0⟩
  | .getState => .host ⟨0x04, 0, 0⟩
  | .readDiag => .host ⟨0x05, 0, 0⟩
  | .clear => .host ⟨0x10, 0, 0⟩
  | .home => .host ⟨0x11, 0, 0⟩
  | .setDisplayOnOff b => flagTxn 0x12 b
  | .setCursorVisible b => flagTxn 0x13 b
  | .setBlinkingCursor b => flagTxn 0x14 b
  | .setBacklight b => flagTxn 0x15 b
  | .setEntryMode m => .host ⟨0x16, m.setWidth 32, 0⟩
  | .moveCursorToCoord line column => .host ⟨0x17, line.setWidth 32 ||| (column.setWidth 32 <<< 8), 0⟩
  | .moveRelative d => flagTxn 0x18 d.bit
  | .shiftDisplay d => flagTxn 0x19 d.bit
  | .print buf len => .host ⟨0x1A, buf, len.setWidth 32⟩
  | .hdClear => .hdInstruction clearByte
  | .hdHome => .hdInstruction homeByte
  | .hdEntryModeSet id s => .hdInstruction (entryModeByte id s)
  | .hdDisplayControl d c b => .hdInstruction (displayControlByte d c b)
  | .hdCursorShift sc rl => .hdInstruction (cursorShiftByte sc rl)
  | .hdFunctionSet dl n f => .hdInstruction (functionSetByte dl n f)
  | .hdSetDdramAddr addr => .hdInstruction (setDdramAddrByte addr)
  | .hdData data => .hdDataByte data
  | .payRaise nib bl rs => .nibblePayload (payloadByte nib bl true rs)
  | .payFall nib bl rs => .nibblePayload (payloadByte nib bl false rs)
  | .payBacklight bl => .backlightPayload (backlightByte bl)
  | .payProbeRaise bl => .probePayload (payloadByte 0x3 bl true false)
  | .payProbeFall bl => .probePayload (payloadByte 0x3 bl false false)

/-- The 8 bits the opcode table matches: CMD of a transaction, or the byte or payload itself. -/
def Code.tableByte : Code → Byte
  | .host t => t.cmd
  | .hdInstruction b | .hdDataByte b => b
  | .nibblePayload p | .probePayload p | .backlightPayload p => p

/-! ## The opcode table's bare words -/

/-- The format in which a bare word of the opcode table is read: the table lists three formats with overlapping 8-bit patterns
and a bare word does not say its format, so the first format that has the word takes it. A host command first (R112: CMD is the
block's only input); then a probe payload, before the byte FUNCTION_SET with the data-length bit set, which is never sent as a
full byte (R133); then a byte sent with RS = 0, a backlight payload, a nibble payload; a word that is none of these is a data
byte. The words of a host transaction are CMD in bits 7..0, ARG0 in bits 39..8 and ARG1 in bits 71..40 (log entry 4). -/
def tableCode (w : Nat) : Code :=
  let b : Byte := BitVec.ofNat 8 w
  let t : Txn := ⟨b, BitVec.ofNat 32 (w / 2 ^ 8), BitVec.ofNat 32 (w / 2 ^ 40)⟩
  if (decodeHost t).isSome then .host t
  else if (decodeProbePayload b).isSome then .probePayload b
  else if (decodeHdInstruction b).isSome then .hdInstruction b
  else if (decodeBacklightPayload b).isSome then .backlightPayload b
  else if (decodeNibblePayload b).isSome then .nibblePayload b
  else .hdDataByte b

/-- What the decoder reads from a word of the table, the bits above nbits zero. -/
def decodeTableWord (nbits w : Nat) : Option Instr := decode (tableCode (w % 2 ^ nbits))

end Sys2Proof
end

