-- ==== Sys2Proof/Machine/State.lean ====
section
/-!
DEFINITION. The state, as plain data: the three records of 10_state.md (configuration, sequencer, diagnostic and error
registers), the register port (R111), the host memory (R80), the pending inputs, and the external services the block calls
(R5, R12) with the calls made to them. After it the named updates, the reasons a step can stop, and the state after reset (R60).
-/

namespace Sys2Proof.Machine

/-- `active[3:0]` (R42), by name. `unassigned k` is the encoding 11 + k, which no transaction of the block produces. -/
inductive Active where
  | idle
  | init
  | clear
  | home
  | displayControls
  | entryMode
  | backlight
  | moveAbs
  | moveRel
  | shiftDisplay
  | print
  | unassigned (k : Fin 5)
  deriving DecidableEq, Repr

/-- The status codes of R340; the codes 12 to 255, never returned, have no constructor. -/
inductive Status where
  | ok
  | invalidArgument
  | nullReference
  | notInitialized
  | deviceBusy
  | wrongState
  | i2cInvalidAddress
  | i2cNotResponding
  | i2cMalformedRequest
  | i2cBusy
  | timebaseFailure
  | maxConsecutiveErrors
  deriving DecidableEq, Repr

/-- The values of `dev_state()` (R53). -/
inductive DevState where
  | notInitialized
  | initializing
  | ready
  | processing
  deriving DecidableEq, Repr

/-- The command-parameter registers (R43). -/
structure CmdParams where
  /-- `p_line[7:0]`. -/
  line : Byte
  /-- `p_column[7:0]`. -/
  column : Byte
  /-- `p_dir`. -/
  dir : Direction
  /-- `p_buf[31:0]`. -/
  buf : Word
  /-- `p_len[15:0]`. -/
  len : BitVec 16
  /-- `p_index[15:0]`. -/
  index : BitVec 16
  deriving DecidableEq, Repr

/-- All parameters 0 (R43). -/
def CmdParams.zero : CmdParams := ⟨0, 0, .left, 0, 0, 0⟩

/-- The byte-transfer sub-state (R44): four 1-bit registers under the source's names. -/
structure SubBits where
  firstPass : Bool
  lowerBits : Bool
  pulseSent : Bool
  waiting : Bool
  deriving DecidableEq, Repr

/-- The combination SETUP (R44). -/
def SubBits.setup : SubBits := ⟨true, false, false, false⟩

/-- The eight combinations of R44, by name. -/
inductive SubState where
  | setup
  | settle
  | hRaise
  | hTick
  | hWait
  | lRaise
  | lTick
  | lWait
  deriving DecidableEq, Repr

/-- The sequencer registers, SequencerState (R40 to R49). -/
structure Seq where
  /-- `initialized` (R41). -/
  initialized : Bool
  /-- `active` (R42). -/
  active : Active
  /-- `p_line` to `p_index` (R43). -/
  par : CmdParams
  /-- `first_pass`, `lower_bits`, `pulse_sent`, `waiting` (R44). -/
  sub : SubBits
  /-- `wait_start[TICK_BITS-1:0]` (R45), a tick. -/
  waitStart : Nat
  /-- `cur_byte[7:0]` (R46). -/
  curByte : Byte
  /-- `cur_rs` (R46). -/
  curRs : Bool
  /-- `nibble_only` (R46). -/
  nibbleOnly : Bool
  /-- `pl_bl` (R47). -/
  plBl : Bool
  /-- `pl_rs` (R47). -/
  plRs : Bool
  /-- `sub_step[3:0]` (R48). -/
  subStep : BitVec 4
  /-- `nested` (R49). -/
  nested : Bool
  deriving DecidableEq, Repr

/-- The diagnostic registers (R50). -/
structure Diag where
  /-- `last_byte[7:0]`. -/
  lastByte : Byte
  /-- `last_payload[7:0]`. -/
  lastPayload : Byte
  deriving DecidableEq, Repr

/-- The error registers, ErrorState (R51, R52). -/
structure Err where
  /-- `last_error[7:0]`, a status code. -/
  lastError : Status
  /-- `err_count[3:0]`. -/
  errCount : BitVec 4
  deriving DecidableEq, Repr

/-- The register port (R111): the argument words of the last transaction and its outputs. -/
structure Port where
  arg0 : Word
  arg1 : Word
  status : Status
  data : Word
  deriving DecidableEq, Repr

/-- An answer of the timebase (R360): a tick or a duration, or a failure. -/
inductive TickAnswer where
  | ok (value : Nat)
  | fail
  deriving DecidableEq, Repr

/-- One external call with its arguments and its answer (R12, R80). -/
inductive Call where
  /-- `timebase.get_tick(id)`. -/
  | getTick (id : BitVec 16) (answer : TickAnswer)
  /-- `timebase.duration_since(id, reference)`. -/
  | durationSince (id : BitVec 16) (reference : Nat) (answer : TickAnswer)
  /-- `i2c.write(id, address, [payload], 1, max_retries)`. -/
  | i2cWrite (id : BitVec 16) (address : BitVec 7) (payload : Byte) (maxRetries : Nat) (result : I2cResult)
  /-- `MemRead(addr, 1)`. -/
  | memRead (addr : Word) (value : Byte)
  deriving DecidableEq, Repr

/-- The external services (R5, R12), the model's own fields: what they will answer, and the calls made to them. -/
structure Env where
  /-- The timebase's count, unwrapped: its tick is this modulo `2 ^ TICK_BITS` (R361). -/
  now : Nat
  /-- What the timebase does at the next calls, first to come first; when empty, Config.freeTimebase says. -/
  timebase : List TimebaseEvent
  /-- The results of the next i2c.write calls, first to come first; when empty, Config.freeI2c says. -/
  i2c : List I2cResult
  /-- How many calls the timebase has answered: the index of its next free value. -/
  tbCalls : Nat
  /-- How many calls the transport has answered: the index of its next free value. -/
  i2cCalls : Nat
  /-- The external calls made, the newest first. -/
  trace : List Call
  deriving DecidableEq, Repr

/-- Something the host does between two steps (R5, R110, R111). -/
inductive Input where
  /-- An encoded instruction: a host transaction, or one of the block's output forms taken as an operation (log entry 5). -/
  | run (c : Code)
  /-- A write of ARG0 at the register port (R111). -/
  | writeArg0 (w : Word)
  /-- A write of ARG1 at the register port (R111). -/
  | writeArg1 (w : Word)
  /-- A write of CMD at the register port: runs the transaction with the current ARG0 and ARG1 (R111). -/
  | writeCmd (cmd : Byte)
  /-- A host write of one byte of its own memory (R99, R102). -/
  | writeMem (addr : Word) (value : Byte)
  deriving DecidableEq, Repr

/-- The whole state. -/
@[ext]
structure State where
  /-- The build-time parameters of the instance (R8, R9). -/
  build : Build
  /-- DisplayConfiguration (R30 to R38). -/
  cfg : DisplayConfig
  /-- SequencerState (R40 to R49). -/
  seq : Seq
  /-- The diagnostic registers (R50). -/
  diag : Diag
  /-- ErrorState (R51, R52). -/
  err : Err
  /-- The register port (R111). -/
  port : Port
  /-- The external services. -/
  env : Env
  /-- Host memory (R80): the bytes the platform admits, addresses rising. -/
  mem : List Host.Cell
  /-- What the host does next, first to come first. -/
  inputs : List Input
  deriving DecidableEq, Repr

/-! ## Named updates -/

def State.withCfg (s : State) (c : DisplayConfig) : State := { s with cfg := c }
def State.withSeq (s : State) (q : Seq) : State := { s with seq := q }
def State.withDiag (s : State) (d : Diag) : State := { s with diag := d }
def State.withErr (s : State) (e : Err) : State := { s with err := e }
def State.withPort (s : State) (p : Port) : State := { s with port := p }
def State.withEnv (s : State) (x : Env) : State := { s with env := x }
def State.withMem (s : State) (m : List Host.Cell) : State := { s with mem := m }
def State.withInputs (s : State) (l : List Input) : State := { s with inputs := l }

/-! ## The reasons a step can stop -/

/-- The states the spec says a model must treat as a fault (log entry 8), and the one read it calls stuck (log entry 7). -/
inductive Fault where
  /-- PROCESS needs a host-memory byte the platform does not admit (R81, R200, D35: the transaction is stuck). Raised by the
  print handler's setup entry. Safe. -/
  | hostReadNotAdmitted
  /-- `active` is 11 to 15 (R42, R201). Raised by the dispatch of PROCESS. Safe: no run reaches it. -/
  | activeUnassigned
  /-- `sub_step` is 9 to 15 (R48, 93_implementation_defined.md). Raised by the bootstrap handler. Safe: no run reaches it. -/
  | subStepOutOfRange
  /-- The four sub-state bits are none of the eight combinations (R44). Raised by the handlers that read them. Safe: no run
  reaches it. -/
  | subStateUnreachable
  /-- `send_byte_step` is entered in SETUP (R170). Raised by send_byte_step. Safe: every handler tests for SETUP first. -/
  | sendByteInSetup
  /-- SETTLE with a `sub_step` for which R244 gives no settle time. Raised by settle_step. Safe: R54 (5) says no run reaches it. -/
  | settleOutsideProbe
  deriving DecidableEq, Repr

/-- The reasons an instruction is refused. -/
inductive Refusal where
  /-- The instruction has no meaning in this model. Raised by the dispatch of exec alone. Safe. -/
  | notModelled (mnemonic : String)
  /-- The word is no output form of the block (R122, R133). Raised when such a word is given as an input. Safe: the block has no
  input in this format. -/
  | notAnOutputForm
  deriving DecidableEq, Repr

/-! ## Reset -/

/-- The configuration registers after reset (R60). -/
def resetConfig : DisplayConfig := ⟨0, false, false, 0, false, false, false, false, 0, 0⟩

/-- The sequencer registers after reset (R60): IDLE, SETUP, 0 elsewhere. -/
def Seq.reset : Seq where
  initialized := false
  active := .idle
  par := .zero
  sub := .setup
  waitStart := 0
  curByte := 0
  curRs := false
  nibbleOnly := false
  plBl := false
  plRs := false
  subStep := 0
  nested := false

/-- The diagnostic registers after reset (R60). -/
def Diag.reset : Diag := ⟨0, 0⟩

/-- The error registers after reset (R60). -/
def Err.reset : Err := ⟨.ok, 0⟩

/-- The register port after power-on (R111). -/
def Port.reset : Port := ⟨0, 0, .ok, 0⟩

/-- The external services before the first call: no answer scripted, no call made (log entry 12). -/
def Env.reset : Env := ⟨0, [], [], 0, 0, []⟩

/-- An instance of build b right after power-on (R380): every register at its value of R60, host memory with nothing listed
and no input pending. -/
def State.resetOf (b : Build) : State where
  build := b
  cfg := resetConfig
  seq := .reset
  diag := .reset
  err := .reset
  port := .reset
  env := .reset
  mem := []
  inputs := []

/-- The machine right after reset, of whatever build Config.build is. -/
def State.reset : State := .resetOf Config.build

end Sys2Proof.Machine
end

