-- ==== Sys2Proof/Machine/Ops.lean ====
section
/-!
DEFINITION. The shared operations: host memory, the calls to the external services (R12), the answer to the host (R110), loading
and ending a command (R206, R281), and the escalation (R345), which is what the block has in place of a trap (R348).
-/

namespace Sys2Proof.Machine

/-! ## Host memory (R80): a byte the list does not hold is one the platform does not admit (R81; log entry 7) -/

/-- The byte at an address. -/
def memGet : List Host.Cell → Nat → Option Byte
  | [], _ => none
  | (a, b) :: rest, x => if a = x then some b else memGet rest x

/-- The memory with one byte written, addresses kept rising. -/
def memPut : List Host.Cell → Nat → Byte → List Host.Cell
  | [], x, v => [(x, v)]
  | (a, b) :: rest, x, v =>
    if x < a then (x, v) :: (a, b) :: rest
    else if x = a then (x, v) :: rest
    else (a, b) :: memPut rest x v

/-- The addresses rise strictly from lo on and are addresses of the 32-bit space. -/
def memWfFrom : Nat → List Host.Cell → Bool
  | _, [] => true
  | lo, (a, _) :: rest => decide (lo ≤ a) && decide (a < 2 ^ 32) && memWfFrom (a + 1) rest

/-- The canonical form of memory. An unlisted address reads as no byte, so no entry can equal it. -/
def Memory.wf (m : List Host.Cell) : Bool := memWfFrom 0 m

/-! ## The external services -/

/-- What the timebase does at the next call: the script's head, else the free value of this call. -/
def timebaseEvent (s : State) : TimebaseEvent :=
  match s.env.timebase with
  | [] => Config.freeTimebase s.env.tbCalls
  | e :: _ => e

/-- What the transport answers at the next call: the script's head, else the free value of this call. -/
def i2cEvent (s : State) : I2cResult :=
  match s.env.i2c with
  | [] => Config.freeI2c s.env.i2cCalls
  | r :: _ => r

/-- `2 ^ TICK_BITS` (R361). -/
def tickModulus (s : State) : Nat := 2 ^ s.build.tickBits

/-- The answer `TickNow()` gets (R12, R361): the count modulo `2 ^ TICK_BITS`. -/
def tickAnswer (s : State) : TickAnswer :=
  match timebaseEvent s with
  | .runs d => .ok ((s.env.now + d) % tickModulus s)
  | .fails => .fail

/-- The answer `Elapsed(ref)` gets (R12, R361): `(now - ref) mod 2 ^ TICK_BITS` (log entry 14). -/
def elapsedAnswer (ref : Nat) (s : State) : TickAnswer :=
  match timebaseEvent s with
  | .runs d => .ok (((s.env.now + d) % tickModulus s + tickModulus s - ref % tickModulus s) % tickModulus s)
  | .fails => .fail

/-- The services after one timebase call, recorded as c. -/
def afterTimebase (c : Call) (s : State) : State :=
  s.withEnv
    { s.env with
      now := match timebaseEvent s with
        | .runs d => s.env.now + d
        | .fails => s.env.now
      timebase := s.env.timebase.tail
      tbCalls := s.env.tbCalls + 1
      trace := c :: s.env.trace }

/-- `TickNow()` (R12): `timebase.get_tick(cfg_tb_id)`. -/
def tickNow (s : State) : TickAnswer × State := (tickAnswer s, afterTimebase (.getTick s.cfg.tbId (tickAnswer s)) s)

/-- `Elapsed(ref)` (R12): `timebase.duration_since(cfg_tb_id, ref)`. -/
def elapsed (ref : Nat) (s : State) : TickAnswer × State :=
  (elapsedAnswer ref s, afterTimebase (.durationSince s.cfg.tbId ref (elapsedAnswer ref s)) s)

/-- The state after `I2CWrite(p)` (R12, R362): one call, with the ids and the address of the configuration and the retry budget
of the build. A result other than `OK` changed nothing at the expander (R93). -/
def afterI2c (p : Byte) (s : State) : State :=
  s.withEnv
    { s.env with
      i2c := s.env.i2c.tail
      i2cCalls := s.env.i2cCalls + 1
      trace := .i2cWrite s.cfg.i2cId s.cfg.i2cAddr p s.build.i2cMaxRetries (i2cEvent s) :: s.env.trace }

/-- `map_transport(r)` (R342). R161 never passes `OK` to it. -/
def mapTransport : I2cResult → Status
  | .ok => .ok
  | .busy => .i2cBusy
  | .invalidAddress => .i2cInvalidAddress
  | .notResponding => .i2cNotResponding
  | .malformed => .i2cMalformedRequest
  | .other _ => .i2cNotResponding

/-- `write_payload(p)` (R161): one write; `last_payload` takes p when it is accepted. -/
def writePayload (p : Byte) (s : State) : Status × State :=
  if i2cEvent s = .ok then (.ok, (afterI2c p s).withDiag { s.diag with lastPayload := p })
  else (mapTransport (i2cEvent s), afterI2c p s)

/-- `MemRead(addr, 1)` (R12, R80), recorded; none where the platform does not admit the read (R81). -/
def memRead (addr : Word) (s : State) : Option (Byte × State) :=
  match memGet s.mem addr.toNat with
  | some b => some (b, s.withEnv { s.env with trace := .memRead addr b :: s.env.trace })
  | none => none

/-! ## The answer to the host -/

/-- The end of a transaction (R110, R13): STATUS is the status and DATA the value. -/
def answer (st : Status) (data : Word) (s : State) : Host.Outcome State Fault Refusal :=
  .next (s.withPort { s.port with status := st, data := data })

/-- The end of a transaction whose DATA is 0 (R110). -/
def respond (st : Status) (s : State) : Host.Outcome State Fault Refusal := answer st 0 s

/-! ## Loading and ending a command -/

/-- `load(a, params)` (R281). -/
def load (a : Active) (p : CmdParams) (s : State) : State :=
  s.withSeq { s.seq with active := a, nested := false, subStep := 0, par := p, sub := .setup, nibbleOnly := false }

/-- `finish()` (R206). -/
def finish (s : State) : State := load .idle .zero s

/-- `escalate()` (R345): the MaxErrorsHit transition. -/
def escalate (s : State) : State := (finish s).withErr { s.err with errCount := 0 }

/-- `finalize()` (R205). -/
def finalize (s : State) : State :=
  if s.seq.nested then s.withSeq { s.seq with subStep := s.seq.subStep + 1 } else finish s

end Sys2Proof.Machine
end

