-- ==== Sys2Proof/Machine/Operands.lean ====
section
/-!
DEFINITION. The operand forms: thresholds (R8, R176), argument checks (R241, R289), the bytes the commands send (R204), the
pending nibble and its payload (R160, R162), and the fetch address of a character (R80, R90).
-/

namespace Sys2Proof.Machine

/-! ## Thresholds, in ticks (R8) -/

/-- A source value given in microseconds and in milliseconds, in the ticks of the build. -/
def ticks (s : State) (us ms : Nat) : Nat :=
  match s.build.tbRes with
  | .us => us
  | .ms => ms

/-- `T_EN`: 37 us or 1 ms. -/
def tEn (s : State) : Nat := ticks s 37 1

/-- `T_BOOT`: 40 ms. -/
def tBoot (s : State) : Nat := ticks s 40000 40

/-- `T_SETTLE1`: 5 ms. -/
def tSettle1 (s : State) : Nat := ticks s 5000 5

/-- `T_SETTLE2`: 1 ms. -/
def tSettle2 (s : State) : Nat := ticks s 1000 1

/-- `W(sub_step)` (R244): the settle time of a probe; no other step has one. -/
def settleTime (s : State) : Option Nat :=
  match s.seq.subStep.toNat with
  | 0 => some (tBoot s)
  | 1 => some (tSettle1 s)
  | 2 => some (tSettle2 s)
  | _ => none

/-- `ERR_CEILING` (R8). -/
def errCeiling : BitVec 4 := 10

/-! ## Argument checks -/

/-- `config_legal(a)` (R241). -/
def configLegal (a : DisplayConfig) : Bool := !(a.twoLines && a.font5x10)

/-- `geometry_ok(line, column)` (R289). -/
def geometryOk (line column : Byte) (s : State) : Bool :=
  if s.cfg.twoLines then decide (line.toNat ≤ 1) && decide (column.toNat ≤ 39)
  else decide (line.toNat = 0) && decide (column.toNat ≤ 79)

/-- `ddram_addr(line, column)` (R290). -/
def ddramAddr (line column : Byte) (s : State) : Byte := (if s.cfg.twoLines then line * 0x40 else 0) + column

/-! ## The bytes of the commands -/

/-- `cmd_byte(DISPLAY_CONTROLS)` (R204). -/
def displayControlsCmd (s : State) : Byte :=
  displayControlByte s.cfg.displayEnabled s.cfg.cursorVisible s.cfg.cursorBlink

/-- `cmd_byte(ENTRY_MODE)` (R204). -/
def entryModeCmd (s : State) : Byte := entryModeByte (s.cfg.entryMode.getLsbD 1) (s.cfg.entryMode.getLsbD 0)

/-- The configured function set (R130, R249). -/
def functionSetCmd (s : State) : Byte := functionSetByte false s.cfg.twoLines s.cfg.font5x10

/-- `cmd_byte(a)` (R204): the byte of a single-byte command; the other commands have none. -/
def cmdByte (a : Active) (s : State) : Option Byte :=
  match a with
  | .clear => some clearByte
  | .home => some homeByte
  | .displayControls => some (displayControlsCmd s)
  | .entryMode => some (entryModeCmd s)
  | .moveAbs => some (0x80 ||| ddramAddr s.seq.par.line s.seq.par.column s)
  | .moveRel => some (cursorShiftByte false s.seq.par.dir.bit)
  | .shiftDisplay => some (cursorShiftByte true s.seq.par.dir.bit)
  | .idle | .init | .backlight | .print | .unassigned _ => none

/-! ## The current byte -/

/-- `nib()` (R162): the nibble now pending. -/
def nib (s : State) : Nibble :=
  if s.seq.sub.lowerBits then s.seq.curByte.extractLsb' 0 4 else s.seq.curByte.extractLsb' 4 4

/-- `pay(nib(), en)` (R160, R121). -/
def pay (en : Bool) (s : State) : Byte := payloadByte (nib s) s.seq.plBl en s.seq.plRs

/-- The address of the next character (R80), modulo 2^32 (R90). -/
def fetchAddr (s : State) : Word := s.seq.par.buf + s.seq.par.index.setWidth 32

/-- The name of the sub-state's combination (R44), none where it has none. -/
def subState (b : SubBits) : Option SubState :=
  match b.firstPass, b.lowerBits, b.pulseSent, b.waiting with
  | true, false, false, false => some .setup
  | false, false, false, true => some .settle
  | false, false, false, false => some .hRaise
  | false, false, true, false => some .hTick
  | false, false, true, true => some .hWait
  | false, true, false, false => some .lRaise
  | false, true, true, false => some .lTick
  | false, true, true, true => some .lWait
  | _, _, _, _ => none

end Sys2Proof.Machine
end

