-- ==== Sys2Proof/Machine/Flags.lean ====
section
/-!
DEFINITION. The block has no condition codes (R57). What a host reads as status is computed here: the status codes (R340),
`dev_state` (R53), the READ_DIAG word (R119), the readiness check (R280), and the accounting of errors (R343, R344).
-/

namespace Sys2Proof.Machine

/-- The code of a status (R340). -/
def Status.code : Status → Byte
  | .ok => 0
  | .invalidArgument => 1
  | .nullReference => 2
  | .notInitialized => 3
  | .deviceBusy => 4
  | .wrongState => 5
  | .i2cInvalidAddress => 6
  | .i2cNotResponding => 7
  | .i2cMalformedRequest => 8
  | .i2cBusy => 9
  | .timebaseFailure => 10
  | .maxConsecutiveErrors => 11

/-- The encoding of the active command (R42). -/
def Active.code : Active → BitVec 4
  | .idle => 0
  | .init => 1
  | .clear => 2
  | .home => 3
  | .displayControls => 4
  | .entryMode => 5
  | .backlight => 6
  | .moveAbs => 7
  | .moveRel => 8
  | .shiftDisplay => 9
  | .print => 10
  | .unassigned k => BitVec.ofNat 4 (11 + k.val)

/-- The code of a device state (R53). -/
def DevState.code : DevState → BitVec 2
  | .notInitialized => 0
  | .initializing => 1
  | .ready => 2
  | .processing => 3

/-- `dev_state()` (R53). -/
def devState (s : State) : DevState :=
  if !s.seq.initialized then .notInitialized
  else if s.seq.active = .init then .initializing
  else if s.seq.active = .idle then .ready
  else .processing

/-- The DATA word of READ_DIAG (R119, R213). -/
def diagWord (s : State) : Word :=
  (0 : BitVec 2) ++ (devState s).code ++ s.err.errCount ++ s.err.lastError.code ++ s.diag.lastPayload ++ s.diag.lastByte

/-- `ready_check(op)` (R280); toggle says that op is one of the three display-control toggles. -/
def readyCheck (toggle : Bool) (s : State) : Status :=
  if !s.seq.initialized then .notInitialized
  else if s.seq.active = .init then .deviceBusy
  else if s.seq.active = .idle then .ok
  else if toggle && s.build.preemptToggles then .ok
  else .deviceBusy

/-- `account(s)` (R343) for a status that counts: a transport failure other than busy. -/
def countError (st : Status) (s : State) : Status × State :=
  if s.err.errCount + 1 = errCeiling then (.maxConsecutiveErrors, escalate s)
  else (st, s.withErr { s.err with errCount := s.err.errCount + 1 })

/-- `account(s)` (R343). A handler returns no status of the last arm; there the counter stays
(log entry 13). -/
def account (st : Status) (s : State) : Status × State :=
  match st with
  | .ok | .i2cBusy => (st, s.withErr { s.err with errCount := 0 })
  | .timebaseFailure => (st, s)
  | .i2cInvalidAddress | .i2cNotResponding | .i2cMalformedRequest => countError st s
  | .invalidArgument | .nullReference | .notInitialized | .deviceBusy | .wrongState | .maxConsecutiveErrors => (st, s)

/-- `last_error <- s` (R344). -/
def setLastError (st : Status) (s : State) : State := s.withErr { s.err with lastError := st }

end Sys2Proof.Machine
end

