-- ==== Sys2Proof/Machine/Bootstrap.lean ====
section
/-!
DEFINITION. INIT (R240, R241). The bootstrap it starts is run by PROCESS (Sequencer.lean).
-/

namespace Sys2Proof.Machine

/-- What an accepted INIT writes (R240): the configuration, the sequencer and the error registers; the diagnostic registers and
the current-byte registers stay. -/
def startBootstrap (a : DisplayConfig) (s : State) : State :=
  ((s.withCfg a).withSeq
    { s.seq with
      initialized := true
      active := .init
      subStep := 0
      nested := true
      par := .zero
      sub := .setup
      nibbleOnly := false }).withErr .reset

/-- INIT (R240): WRONG_STATE before INVALID_ARGUMENT (R347); a rejected INIT changes nothing. -/
def execInit (a : DisplayConfig) (s : State) : Host.Outcome State Fault Refusal :=
  if s.seq.initialized then respond .wrongState s
  else if configLegal a then respond .ok (startBootstrap a s)
  else respond .invalidArgument s

end Sys2Proof.Machine
end

