-- ==== Sys2Proof/Machine/ByteTransfer.lean ====
section
/-!
DEFINITION. The byte transfer primitive (40_byte_transfer.md) and the two steps of a probe that go with it (R245, R246).
-/

namespace Sys2Proof.Machine

/-- What a step of a transfer returns: a status, the Boolean `done` (R164), and the state it leaves. -/
structure Ran where
  status : Status
  done : Bool
  state : State
  deriving DecidableEq, Repr

/-- `setup_byte(b, rs)` (R163). -/
def setupByte (b : Byte) (rs : Bool) (s : State) : State :=
  s.withSeq
    { s.seq with
      curByte := b
      curRs := rs
      nibbleOnly := false
      plBl := s.cfg.backlight
      plRs := rs
      sub := ⟨false, false, false, false⟩ }

/-- `tick_step()` (R167). -/
def tickStep (s : State) : Ran :=
  match tickNow s with
  | (.fail, s1) => ⟨.timebaseFailure, false, s1⟩
  | (.ok t, s1) =>
    ⟨.ok, false, s1.withSeq { s1.seq with waitStart := t, sub := { s1.seq.sub with waiting := true } }⟩

/-- The raise of the pending nibble and, when it is accepted, its tick (R165, R166); the sub-state stays where the write fails. -/
def raiseStep (s : State) : Ran :=
  let w := writePayload (pay true s) s
  if w.1 = .ok then tickStep (w.2.withSeq { w.2.seq with sub := { w.2.seq.sub with pulseSent := true, waiting := false } })
  else ⟨w.1, false, w.2⟩

/-- `settle_step()` (R246): the raise once the settle time of the probe is over. -/
def settleStep (s : State) : Except Fault Ran :=
  match settleTime s with
  | none => .error .settleOutsideProbe
  | some limit =>
    match elapsed s.seq.waitStart s with
    | (.fail, s1) => .ok ⟨.timebaseFailure, false, s1⟩
    | (.ok e, s1) => if e < limit then .ok ⟨.ok, false, s1⟩ else .ok (raiseStep s1)

/-- `complete_transfer()` (R169). -/
def completeTransfer (s : State) : State :=
  (s.withDiag { s.diag with lastByte := s.seq.curByte }).withSeq { s.seq with sub := .setup, nibbleOnly := false }

/-- What follows an accepted fall (R168): the low nibble of a byte is next, or the transfer is complete. -/
def afterFall (s : State) : Ran :=
  let s1 := s.withSeq { s.seq with sub := { s.seq.sub with pulseSent := false, waiting := false } }
  if !s.seq.sub.lowerBits && !s.seq.nibbleOnly then
    ⟨.ok, false, s1.withSeq { s1.seq with sub := { s1.seq.sub with lowerBits := true } }⟩
  else ⟨.ok, true, completeTransfer s1⟩

/-- `fall_step()` (R168, R176). -/
def fallStep (s : State) : Ran :=
  match elapsed s.seq.waitStart s with
  | (.fail, s1) => ⟨.timebaseFailure, false, s1⟩
  | (.ok e, s1) =>
    if e < tEn s then ⟨.ok, false, s1⟩
    else
      let w := writePayload (pay false s1) s1
      if w.1 = .ok then afterFall w.2 else ⟨w.1, false, w.2⟩

/-- `send_byte_step()` (R164) from a named sub-state. -/
def sendByteStep (b : SubState) (s : State) : Except Fault Ran :=
  match b with
  | .settle => settleStep s
  | .hRaise | .lRaise => .ok (raiseStep s)
  | .hTick | .lTick => .ok (tickStep s)
  | .hWait | .lWait => .ok (fallStep s)
  | .setup => .error .sendByteInSetup

/-- `probe_setup()` (R245) for the byte b; the block's own probes send PROBE_BYTE. -/
def probeSetup (b : Byte) (s : State) : Status × State :=
  match tickNow s with
  | (.fail, s1) => (.timebaseFailure, s1)
  | (.ok t, s1) =>
    (.ok,
      s1.withSeq
        { s1.seq with
          curByte := b
          curRs := false
          nibbleOnly := true
          plBl := s1.cfg.backlight
          plRs := false
          waitStart := t
          sub := ⟨false, false, false, true⟩ })

end Sys2Proof.Machine
end

