-- ==== Sys2Proof/Machine/Forms.lean ====
section
/-!
DEFINITION. The output forms of the opcode table as operations of their own: an HD44780 byte is taken up for transfer
(`setup_byte`, R163; a probe byte by `probe_setup`, R245), a payload is written (`write_payload`, R161). PROCESS calls the same
operations; no transaction gives one of these forms (R133; log entry 5).
-/

namespace Sys2Proof.Machine

/-- A byte form: `setup_byte(b, rs)`, which always returns OK (R163). -/
def byteForm (b : Byte) (rs : Bool) (s : State) : Host.Outcome State Fault Refusal := respond .ok (setupByte b rs s)

/-- A payload form: `write_payload(p)` and the status it returns (R161). -/
def payloadForm (p : Byte) (s : State) : Host.Outcome State Fault Refusal :=
  respond (writePayload p s).1 (writePayload p s).2

/-- HD_CLEAR (R126). -/
def execHdClear (s : State) : Host.Outcome State Fault Refusal := byteForm clearByte false s

/-- HD_HOME (R126). -/
def execHdHome (s : State) : Host.Outcome State Fault Refusal := byteForm homeByte false s

/-- HD_ENTRY_MODE_SET (R127). -/
def execHdEntryModeSet (id sh : Bool) (s : State) : Host.Outcome State Fault Refusal :=
  byteForm (entryModeByte id sh) false s

/-- HD_DISPLAY_CONTROL (R128). -/
def execHdDisplayControl (d c b : Bool) (s : State) : Host.Outcome State Fault Refusal :=
  byteForm (displayControlByte d c b) false s

/-- HD_CURSOR_SHIFT (R129). -/
def execHdCursorShift (sc rl : Bool) (s : State) : Host.Outcome State Fault Refusal :=
  byteForm (cursorShiftByte sc rl) false s

/-- HD_FUNCTION_SET (R130): with the data-length bit clear a full byte; with it set the byte is taken up as a probe, since it is
never sent as a full byte (R133, R244, R245; log entry 6). -/
def execHdFunctionSet (dl n f : Bool) (s : State) : Host.Outcome State Fault Refusal :=
  let b := functionSetByte dl n f
  respond (if dl then (probeSetup b s).1 else .ok) (if dl then (probeSetup b s).2 else setupByte b false s)

/-- HD_SET_DDRAM_ADDR (R131). -/
def execHdSetDdramAddr (addr : BitVec 7) (s : State) : Host.Outcome State Fault Refusal :=
  byteForm (setDdramAddrByte addr) false s

/-- HD_DATA (R132): RS = 1. -/
def execHdData (data : Byte) (s : State) : Host.Outcome State Fault Refusal := byteForm data true s

/-- PAY_RAISE (R121). -/
def execPayRaise (nib : Nibble) (bl rs : Bool) (s : State) : Host.Outcome State Fault Refusal :=
  payloadForm (payloadByte nib bl true rs) s

/-- PAY_FALL (R121). -/
def execPayFall (nib : Nibble) (bl rs : Bool) (s : State) : Host.Outcome State Fault Refusal :=
  payloadForm (payloadByte nib bl false rs) s

/-- PAY_BACKLIGHT (R123). -/
def execPayBacklight (bl : Bool) (s : State) : Host.Outcome State Fault Refusal := payloadForm (backlightByte bl) s

/-- PAY_PROBE_RAISE (R244, R247). -/
def execPayProbeRaise (bl : Bool) (s : State) : Host.Outcome State Fault Refusal :=
  payloadForm (payloadByte 0x3 bl true false) s

/-- PAY_PROBE_FALL (R244, R247). -/
def execPayProbeFall (bl : Bool) (s : State) : Host.Outcome State Fault Refusal :=
  payloadForm (payloadByte 0x3 bl false false) s

end Sys2Proof.Machine
end

