-- ==== Sys2Proof/Machine/PublicOps.lean ====
section
/-!
DEFINITION. The public operations (43_public_ops.md). Each makes the readiness check, validates its arguments and loads its
command; none makes an external call.
-/

namespace Sys2Proof.Machine

/-- A public operation without an argument check (R280, R281): refused by the readiness check, it changes nothing; accepted, it
writes its configuration field and loads its command. -/
def operation (toggle : Bool) (write : State → State) (a : Active) (p : CmdParams) (s : State) :
    Host.Outcome State Fault Refusal :=
  if readyCheck toggle s = .ok then respond .ok (load a p (write s)) else respond (readyCheck toggle s) s

/-- CLEAR (R282). -/
def execClear (s : State) : Host.Outcome State Fault Refusal := operation false id .clear .zero s

/-- HOME (R283). -/
def execHome (s : State) : Host.Outcome State Fault Refusal := operation false id .home .zero s

/-- SET_DISPLAY_ON_OFF (R284). -/
def execSetDisplayOnOff (flag : Bool) (s : State) : Host.Outcome State Fault Refusal :=
  operation true (fun s => s.withCfg { s.cfg with displayEnabled := flag }) .displayControls .zero s

/-- SET_CURSOR_VISIBLE (R285). -/
def execSetCursorVisible (flag : Bool) (s : State) : Host.Outcome State Fault Refusal :=
  operation true (fun s => s.withCfg { s.cfg with cursorVisible := flag }) .displayControls .zero s

/-- SET_BLINKING_CURSOR (R286). -/
def execSetBlinkingCursor (flag : Bool) (s : State) : Host.Outcome State Fault Refusal :=
  operation true (fun s => s.withCfg { s.cfg with cursorBlink := flag }) .displayControls .zero s

/-- SET_BACKLIGHT (R287): it never preempts. -/
def execSetBacklight (flag : Bool) (s : State) : Host.Outcome State Fault Refusal :=
  operation false (fun s => s.withCfg { s.cfg with backlight := flag }) .backlight .zero s

/-- SET_ENTRY_MODE (R288). -/
def execSetEntryMode (mode : BitVec 2) (s : State) : Host.Outcome State Fault Refusal :=
  operation false (fun s => s.withCfg { s.cfg with entryMode := mode }) .entryMode .zero s

/-- MOVE_CURSOR_TO_COORD (R291): the readiness check before the geometry (R347). -/
def execMoveCursorToCoord (line column : Byte) (s : State) : Host.Outcome State Fault Refusal :=
  if readyCheck false s = .ok && !geometryOk line column s then respond .invalidArgument s
  else operation false id .moveAbs { CmdParams.zero with line := line, column := column } s

/-- MOVE_RELATIVE (R292). -/
def execMoveRelative (dir : Direction) (s : State) : Host.Outcome State Fault Refusal :=
  operation false id .moveRel { CmdParams.zero with dir := dir } s

/-- SHIFT_DISPLAY (R293). -/
def execShiftDisplay (dir : Direction) (s : State) : Host.Outcome State Fault Refusal :=
  operation false id .shiftDisplay { CmdParams.zero with dir := dir } s

/-- PRINT (R294): the null reference before the zero length (R347); host memory is not read. -/
def execPrint (buf : Word) (len : BitVec 16) (s : State) : Host.Outcome State Fault Refusal :=
  if readyCheck false s = .ok && decide (buf = 0) then respond .nullReference s
  else if readyCheck false s = .ok && decide (len = 0) then respond .invalidArgument s
  else operation false id .print { CmdParams.zero with buf := buf, len := len } s

end Sys2Proof.Machine
end

