-- ==== Sys2Proof/Machine/Sequencer.lean ====
section
/-!
DEFINITION. The command handlers (R201 to R205, R242 to R253, R296 to R298) and the transactions of 41_sequencer.md: PROCESS,
GET_STATE, READ_DIAG and RESET.
-/

namespace Sys2Proof.Machine

/-- The shape the handlers of a transfer share (R203, R244, R296): the setup entry in SETUP, else one `send_byte_step`, and
`onDone` when it completes the transfer. A combination of the sub-state bits that R44 does not list is a fault. -/
def drive (setup : State → Except Fault (Status × State)) (onDone : State → State) (s : State) :
    Except Fault (Status × State) :=
  match subState s.seq.sub with
  | none => .error .subStateUnreachable
  | some .setup => setup s
  | some b =>
    match sendByteStep b s with
    | .error f => .error f
    | .ok r =>
      if r.status = .ok then .ok (.ok, if r.done then onDone r.state else r.state) else .ok (r.status, r.state)

/-- `run_byte(B)` (R203). -/
def runByte (b : Byte) (s : State) : Except Fault (Status × State) :=
  drive (fun s => .ok (.ok, setupByte b false s)) finalize s

/-- `probe_step()` (R244). -/
def probeStep (s : State) : Except Fault (Status × State) := drive (fun s => .ok (probeSetup probeByte s)) finalize s

/-- The start of bootstrap step 5 (R250): its setup entry clears `cfg_display_enabled`. -/
def forceDisplayOff (s : State) : State :=
  if s.seq.sub.firstPass then s.withCfg { s.cfg with displayEnabled := false } else s

/-- `bootstrap_handler()` (R242, R248 to R253). -/
def bootstrapHandler (s : State) : Except Fault (Status × State) :=
  match s.seq.subStep.toNat with
  | 0 => probeStep s
  | 1 => probeStep s
  | 2 => probeStep s
  | 3 => runByte select4Byte s
  | 4 => runByte (functionSetCmd s) s
  | 5 => runByte (displayControlsCmd (forceDisplayOff s)) (forceDisplayOff s)
  | 6 => runByte clearByte s
  | 7 => runByte (entryModeCmd s) s
  | 8 => .ok (.ok, finish s)
  | _ => .error .subStepOutOfRange

/-- `print_next()` (R297). -/
def printNext (s : State) : State :=
  let s1 := s.withSeq { s.seq with par := { s.seq.par with index := s.seq.par.index + 1 } }
  if s1.seq.par.index = s1.seq.par.len then finish s1 else s1

/-- The setup entry of a character (R296): its byte is read now, and not before (R102). -/
def printSetup (s : State) : Except Fault (Status × State) :=
  match memRead (fetchAddr s) s with
  | none => .error .hostReadNotAdmitted
  | some (c, s1) => .ok (.ok, setupByte c true s1)

/-- `print_handler()` (R296). -/
def printHandler (s : State) : Except Fault (Status × State) := drive printSetup printNext s

/-- `backlight_handler()` (R298). -/
def backlightHandler (s : State) : Status × State :=
  let w := writePayload (backlightByte s.cfg.backlight) s
  if w.1 = .ok then (.ok, finish w.2) else w

/-- `handler(active)` (R201); in Ready no handler runs (R202). -/
def handler (s : State) : Except Fault (Status × State) :=
  match cmdByte s.seq.active s with
  | some b => runByte b s
  | none =>
    match s.seq.active with
    | .init => bootstrapHandler s
    | .print => printHandler s
    | .backlight => .ok (backlightHandler s)
    | .unassigned _ => .error .activeUnassigned
    | _ => .ok (.ok, s)

/-- The end of a PROCESS step (R200): accounting, `last_error`, the answer. -/
def endProcess (st : Status) (s : State) : Host.Outcome State Fault Refusal :=
  let a := account st s
  respond a.1 (setLastError a.1 a.2)

/-- PROCESS (R200). -/
def execProcess (s : State) : Host.Outcome State Fault Refusal :=
  if !s.seq.initialized then respond .notInitialized s
  else
    match handler s with
    | .error f => .fault f
    | .ok r => endProcess r.1 r.2

/-- GET_STATE (R212). -/
def execGetState (s : State) : Host.Outcome State Fault Refusal := answer .ok ((devState s).code.setWidth 32) s

/-- READ_DIAG (R213). -/
def execReadDiag (s : State) : Host.Outcome State Fault Refusal := answer .ok (diagWord s) s

/-- Every register of 10_state.md at its value of R60 (R214). -/
def resetRegisters (s : State) : State :=
  (((s.withCfg resetConfig).withSeq .reset).withDiag .reset).withErr .reset

/-- RESET (R214, R381): the registers of 10_state.md; nothing outside the block is touched. DESIGN CHOICE: of the register port,
whose registers R111 gives a reset value too, the argument words stay as this transaction left them (log entry 16). -/
def execReset (s : State) : Host.Outcome State Fault Refusal := respond .ok (resetRegisters s)

end Sys2Proof.Machine
end

