-- ==== Sys2Proof/Machine/Dispatch.lean ====
section
/-!
DEFINITION. The meaning of every instruction: one arm per row of spec/opcode_table.json.
-/

namespace Sys2Proof.Machine

def exec (i : Instr) (s : State) : Host.Outcome State Fault Refusal :=
  match i with
  | .init a => Sys2Proof.Machine.execInit a s
  | .reset => Sys2Proof.Machine.execReset s
  | .process => Sys2Proof.Machine.execProcess s
  | .getState => Sys2Proof.Machine.execGetState s
  | .readDiag => Sys2Proof.Machine.execReadDiag s
  | .clear => Sys2Proof.Machine.execClear s
  | .home => Sys2Proof.Machine.execHome s
  | .setDisplayOnOff flag => Sys2Proof.Machine.execSetDisplayOnOff flag s
  | .setCursorVisible flag => Sys2Proof.Machine.execSetCursorVisible flag s
  | .setBlinkingCursor flag => Sys2Proof.Machine.execSetBlinkingCursor flag s
  | .setBacklight flag => Sys2Proof.Machine.execSetBacklight flag s
  | .setEntryMode mode => Sys2Proof.Machine.execSetEntryMode mode s
  | .moveCursorToCoord line column => Sys2Proof.Machine.execMoveCursorToCoord line column s
  | .moveRelative dir => Sys2Proof.Machine.execMoveRelative dir s
  | .shiftDisplay dir => Sys2Proof.Machine.execShiftDisplay dir s
  | .print buf len => Sys2Proof.Machine.execPrint buf len s
  | .hdClear => Sys2Proof.Machine.execHdClear s
  | .hdHome => Sys2Proof.Machine.execHdHome s
  | .hdEntryModeSet id sh => Sys2Proof.Machine.execHdEntryModeSet id sh s
  | .hdDisplayControl d c b => Sys2Proof.Machine.execHdDisplayControl d c b s
  | .hdCursorShift sc rl => Sys2Proof.Machine.execHdCursorShift sc rl s
  | .hdFunctionSet dl n f => Sys2Proof.Machine.execHdFunctionSet dl n f s
  | .hdSetDdramAddr addr => Sys2Proof.Machine.execHdSetDdramAddr addr s
  | .hdData data => Sys2Proof.Machine.execHdData data s
  | .payRaise nib bl rs => Sys2Proof.Machine.execPayRaise nib bl rs s
  | .payFall nib bl rs => Sys2Proof.Machine.execPayFall nib bl rs s
  | .payBacklight bl => Sys2Proof.Machine.execPayBacklight bl s
  | .payProbeRaise bl => Sys2Proof.Machine.execPayProbeRaise bl s
  | .payProbeFall bl => Sys2Proof.Machine.execPayProbeFall bl s

end Sys2Proof.Machine
end

