-- ==== Sys2Proof/Machine/HostPort.lean ====
section
/-!
DEFINITION. What the host does to the block, one input a step: a transaction (R110), a write at the register port (R111), a write
of its own memory (R99). And what it reads at the port (R111).
-/

namespace Sys2Proof.Machine

/-- The argument words of a transaction, as the port holds them when CMD is written (R111; log entry 9). -/
def latchArgs (c : Code) (s : State) : State :=
  match c with
  | .host t => s.withPort { s.port with arg0 := t.arg0, arg1 := t.arg1 }
  | .hdInstruction _ | .hdDataByte _ | .nibblePayload _ | .probePayload _ | .backlightPayload _ => s

/-- A word the decoder refuses: an unassigned CMD returns INVALID_ARGUMENT and changes no state, in every device state (R115);
a byte or payload the block never emits (R133) is no input of it (log entry 10). -/
def undecoded (c : Code) (s : State) : Host.Outcome State Fault Refusal :=
  match c with
  | .host _ => respond .invalidArgument s
  | .hdInstruction _ | .hdDataByte _ | .nibblePayload _ | .probePayload _ | .backlightPayload _ =>
    .refused .notAnOutputForm

/-- One encoded instruction: its arguments are latched, it is decoded, and its meaning runs. -/
def runCode (c : Code) (s : State) : Host.Outcome State Fault Refusal :=
  match decode c with
  | some i => exec i (latchArgs c s)
  | none => undecoded c (latchArgs c s)

/-- One input of the host. -/
def takeInput (e : Input) (s : State) : Host.Outcome State Fault Refusal :=
  match e with
  | .run c => runCode c s
  | .writeArg0 w => .next (s.withPort { s.port with arg0 := w })
  | .writeArg1 w => .next (s.withPort { s.port with arg1 := w })
  | .writeCmd cmd => runCode (.host ⟨cmd, s.port.arg0, s.port.arg1⟩) s
  | .writeMem addr value => .next (s.withMem (memPut s.mem addr.toNat value))

/-- The next input, if there is one: between inputs the block holds its registers unchanged (R5, R353,
R385; log entry 11). -/
def stepInput (s : State) : Host.Outcome State Fault Refusal :=
  match s.inputs with
  | [] => .next s
  | e :: rest => takeInput e (s.withInputs rest)

/-- A 32-bit read at an offset of the register port (R111); CMD is write-only and no other offset exists. -/
def portRead (offset : Nat) (s : State) : Option Word :=
  match offset with
  | 0x04 => some s.port.arg0
  | 0x08 => some s.port.arg1
  | 0x0C => some (s.port.status.code.setWidth 32)
  | 0x10 => some s.port.data
  | _ => none

/-- Byte k of a port word on a byte-addressed bus, in the byte order `PORT_ENDIAN` of the build (R88, R111). -/
def portByte (w : Word) (k : Fin 4) (s : State) : Byte :=
  match s.build.portEndian with
  | .little => w.extractLsb' (8 * k.val) 8
  | .big => w.extractLsb' (8 * (3 - k.val)) 8

end Sys2Proof.Machine
end

