-- ==== Sys2Proof/Machine/Step.lean ====
section
/-!
DEFINITION. One step of the machine: the host's next input.
-/

namespace Sys2Proof.Machine

/-- One step (R15): one input of the host, atomically; without an input nothing changes. -/
def step (s : State) : Host.Outcome State Fault Refusal := stepInput s

/-- s with the instruction of a table word as the input that step takes next (log entry 4). -/
def State.withFetchWord (s : State) (nbits w : Nat) : State :=
  s.withInputs (.run (tableCode (w % 2 ^ nbits)) :: s.inputs)

end Sys2Proof.Machine
end

