-- ==== Sys2Proof/Safety.lean ====
section
/-!
DEFINITION. The terms claims are stated in: the observable output (R15), the expander and what the display latches (R83, R134,
R363), quiescence (R209), the invariants between transactions (R39, R54), and what a host can do.
-/

namespace Sys2Proof.Machine

/-! ## The observable output -/

/-- The payload of a write the transport accepted. -/
def Call.accepted : Call → Option Byte
  | .i2cWrite _ _ p _ .ok => some p
  | .i2cWrite _ _ _ _ _ | .getTick _ _ | .durationSince _ _ _ | .memRead _ _ => none

/-- Whether a call is an `i2c.write`, accepted or not. -/
def Call.isI2cWrite : Call → Bool
  | .i2cWrite _ _ _ _ _ => true
  | .getTick _ _ | .durationSince _ _ _ | .memRead _ _ => false

/-- The payloads for which `I2CWrite` returned OK, in order (R15, R98): what the expander receives. -/
def output (s : State) : List Byte := (s.env.trace.filterMap Call.accepted).reverse

/-- How many `I2CWrite` calls were made. -/
def writeCount (s : State) : Nat := (s.env.trace.filter Call.isI2cWrite).length

/-- The expander's output latch (R83): the last payload; none before the block's first write, where it is any value. -/
def expanderLatch (s : State) : Option Byte := (output s).getLast?

/-- The nibbles and their RS that the display latches from a list of payloads: at each falling edge of EN (R363), prev being the
payload before. -/
def latchedFrom : Byte → List Byte → List (Nibble × Bool)
  | _, [] => []
  | prev, p :: rest =>
    if prev.getLsbD 2 && !p.getLsbD 2 then (p.extractLsb' 4 4, p.getLsbD 0) :: latchedFrom p rest else latchedFrom p rest

/-! ## Reading the output back into bytes (R134; log entry 17) -/

/-- What a run sent, read back: a probe's single nibble, or a full byte. -/
inductive Sent where
  | probe (n : Nibble)
  | byte (b : Byte)
  deriving DecidableEq, Repr

/-- A payload that belongs to a raise and fall pair, and whether it is a probe's; none for a backlight payload, which is dropped,
and for a word that is no payload. -/
def pairPayload : Code → Option (Byte × Bool)
  | .nibblePayload p => some (p, false)
  | .probePayload p => some (p, true)
  | .backlightPayload _ | .host _ | .hdInstruction _ | .hdDataByte _ => none

/-- The raise and fall pairs: the nibble of each is bits 7 to 4 of its fall. The first argument says that the payload before was
a raise; a raise that never got its fall (R387, R388) makes no pair. -/
def pairNibbles : Bool → List (Byte × Bool) → List (Nibble × Bool)
  | _, [] => []
  | raised, (p, probe) :: rest =>
    if p.getLsbD 2 then pairNibbles true rest
    else if raised then (p.extractLsb' 4 4, probe) :: pairNibbles false rest
    else pairNibbles false rest

/-- The pairs read back: a probe's pair stands alone, and of a full byte's two the high nibble comes first. The first argument is a
high nibble still without its low one; one that never gets it makes no byte. -/
def joinNibbles : Option Nibble → List (Nibble × Bool) → List Sent
  | _, [] => []
  | _, (n, true) :: rest => .probe n :: joinNibbles none rest
  | none, (n, false) :: rest => joinNibbles (some n) rest
  | some h, (n, false) :: rest => .byte (h ++ n) :: joinNibbles none rest

/-- The nibble-pair reconstruction (R134) of payloads that each come with their place in the command sequence. -/
def reconstruct (cs : List Code) : List Sent := joinNibbles none (pairNibbles false (cs.filterMap pairPayload))

/-- The place in the command sequence of a payload that instruction i writes in state s: the BACKLIGHT command's, a probe's
(`nibble_only`, R46), or a full byte's. A payload form is its own place. -/
def placed (i : Instr) (s : State) (p : Byte) : Code :=
  match i with
  | .payBacklight _ => .backlightPayload p
  | .payProbeRaise _ | .payProbeFall _ => .probePayload p
  | .payRaise _ _ _ | .payFall _ _ _ => .nibblePayload p
  | _ =>
    if s.seq.active = .backlight then .backlightPayload p
    else if s.seq.nibbleOnly then .probePayload p
    else .nibblePayload p

/-- The payloads a run of instructions adds to the output, in order, each with its place; the run ends where one stops. -/
def runOutput : List Instr → State → List Code
  | [], _ => []
  | i :: is, s =>
    match exec i s with
    | .next t => ((output t).drop (output s).length).map (placed i s) ++ runOutput is t
    | .fault _ => []
    | .refused _ => []

/-! ## The payloads of a transfer -/

/-- The four payloads of a byte (R175). -/
def bytePayloads (b : Byte) (bl rs : Bool) : List Byte :=
  [payloadByte (b.extractLsb' 4 4) bl true rs, payloadByte (b.extractLsb' 4 4) bl false rs,
    payloadByte (b.extractLsb' 0 4) bl true rs, payloadByte (b.extractLsb' 0 4) bl false rs]

/-- The two payloads of a probe (R247). -/
def probePayloads (bl : Bool) : List Byte := [payloadByte 0x3 bl true false, payloadByte 0x3 bl false false]

/-! ## Runs of PROCESS -/

/-- Quiescent (R209). -/
def Quiescent (s : State) : Prop := devState s = .ready ∨ devState s = .notInitialized

/-- n PROCESS transactions in a row, stopping at a fault. -/
def processTimes : Nat → State → Host.Outcome State Fault Refusal
  | 0, s => .next s
  | n + 1, s =>
    match exec .process s with
    | .next t => processTimes n t
    | o => o

/-- The environment of the rules that count transactions (R177, R255, R396): the next w writes are accepted, and the timebase
answers the next c calls, each after enough ticks for every threshold and fewer than the wrap. -/
def AnswersAtOnce (w c : Nat) (s : State) : Prop :=
  (∃ rest, s.env.i2c = List.replicate w .ok ++ rest) ∧
    ∃ (ds : List Nat) (rest : List TimebaseEvent), s.env.timebase = ds.map .runs ++ rest ∧ ds.length = c ∧ ∀ d ∈ ds, tBoot s ≤ d ∧ d < tickModulus s

/-- The 26 payloads of the bootstrap (R254). -/
def bootstrapPayloads (c : DisplayConfig) : List Byte :=
  probePayloads c.backlight ++ probePayloads c.backlight ++ probePayloads c.backlight
    ++ bytePayloads 0x20 c.backlight false
    ++ bytePayloads (functionSetByte false c.twoLines c.font5x10) c.backlight false
    ++ bytePayloads (displayControlByte false c.cursorVisible c.cursorBlink) c.backlight false
    ++ bytePayloads 0x01 c.backlight false
    ++ bytePayloads (entryModeByte (c.entryMode.getLsbD 1) (c.entryMode.getLsbD 0)) c.backlight false

/-! ## Kinds of instructions and the words of the statements -/

/-- The eleven public operations (43_public_ops.md). -/
def isOperation : Instr → Bool
  | .clear | .home | .setDisplayOnOff _ | .setCursorVisible _ | .setBlinkingCursor _ | .setBacklight _ | .setEntryMode _
  | .moveCursorToCoord _ _ | .moveRelative _ | .shiftDisplay _ | .print _ _ => true
  | _ => false

/-- The three display-control toggles, the preempting set (R280). -/
def isToggle : Instr → Bool
  | .setDisplayOnOff _ | .setCursorVisible _ | .setBlinkingCursor _ => true
  | _ => false

/-- The byte and the RS of a byte form. -/
def formByte (i : Instr) : Option (Byte × Bool) :=
  match encode i with
  | .hdInstruction b => some (b, false)
  | .hdDataByte b => some (b, true)
  | _ => none

/-- The payload of a payload form. -/
def formPayload (i : Instr) : Option Byte :=
  match encode i with
  | .nibblePayload p | .probePayload p | .backlightPayload p => some p
  | _ => none

/-- The state s with the outputs of a transaction (R110). -/
def answered (st : Status) (data : Word) (s : State) : State :=
  { s with port := { s.port with status := st, data := data } }

/-- The answer of a PROCESS step: STATUS, DATA 0 and `last_error` (R200, R344). -/
def Reports (st : Status) (t : State) : Prop := t.port.status = st ∧ t.port.data = 0 ∧ t.err.lastError = st

/-- What no instruction writes: the build, host memory, the inputs to come and the argument words of the port (for RESET log
entry 16). -/
def Untouched (s t : State) : Prop :=
  t.build = s.build ∧ t.mem = s.mem ∧ t.inputs = s.inputs ∧ t.port.arg0 = s.port.arg0 ∧ t.port.arg1 = s.port.arg1

/-- The registers other than the error registers are those of s (R174). -/
def SameRegisters (s t : State) : Prop := t.cfg = s.cfg ∧ t.seq = s.seq ∧ t.diag = s.diag

/-- The call a check of the current wait makes (R168, R246). -/
def waitCheck (s : State) : Call := .durationSince s.cfg.tbId s.seq.waitStart (elapsedAnswer s.seq.waitStart s)

/-- A PROCESS in which a timebase call, made first, failed: the call alone happened, the counter stays, and every register but
`last_error` is as it was (R167, R168, R246, R343). -/
def TimebaseFailed (c : Call) (s t : State) : Prop :=
  Reports .timebaseFailure t ∧ t.err.errCount = s.err.errCount ∧ SameRegisters s t ∧ Untouched s t ∧
    t.env.trace = c :: s.env.trace

/-- A PROCESS whose write of p the transport refused, after the calls made before it (R161, R165, R168, R246, R298). Busy clears the
counter; another result counts, the command staying where it was for the next PROCESS; the tenth in a row ends the command
(R343, R345). -/
def WriteRefused (p : Byte) (made : List Call) (s t : State) : Prop :=
  t.cfg = s.cfg ∧ t.diag = s.diag ∧ Untouched s t ∧
    t.env.trace = .i2cWrite s.cfg.i2cId s.cfg.i2cAddr p s.build.i2cMaxRetries (i2cEvent s) :: (made ++ s.env.trace) ∧
    (i2cEvent s = .busy → Reports .i2cBusy t ∧ t.err.errCount = 0 ∧ t.seq = s.seq) ∧
    (i2cEvent s ≠ .busy → s.err.errCount ≠ 9 →
      Reports (mapTransport (i2cEvent s)) t ∧ t.err.errCount = s.err.errCount + 1 ∧ t.seq = s.seq) ∧
    (i2cEvent s ≠ .busy → s.err.errCount = 9 →
      Reports .maxConsecutiveErrors t ∧ t.err.errCount = 0 ∧
        t.seq = { s.seq with
          active := .idle, subStep := 0, nested := false, par := ⟨0, 0, .left, 0, 0, 0⟩
          sub := ⟨true, false, false, false⟩, nibbleOnly := false })

/-- The handler of the active command drives a transfer (R203, R242, R296): a single-byte command, PRINT, or a bootstrap stage
before the last. -/
def Transfers (s : State) : Prop :=
  (cmdByte s.seq.active s).isSome = true ∨ s.seq.active = .print ∨ (s.seq.active = .init ∧ s.seq.subStep.toNat ≤ 7)

/-- A status of the transport (R342). -/
def Status.isTransport : Status → Bool
  | .i2cInvalidAddress | .i2cNotResponding | .i2cMalformedRequest | .i2cBusy => true
  | _ => false

/-- The argument bits R113 assigns in ARG0, by command code. -/
def argMask0 (cmd : Byte) : Word :=
  match cmd.toNat with
  | 0x01 => 0x7FFF
  | 0x12 | 0x13 | 0x14 | 0x15 | 0x18 | 0x19 => 0x1
  | 0x16 => 0x3
  | 0x17 => 0xFFFF
  | 0x1A => 0xFFFFFFFF
  | _ => 0

/-- The argument bits R113 assigns in ARG1, by command code. -/
def argMask1 (cmd : Byte) : Word :=
  match cmd.toNat with
  | 0x01 => 0xFFFFFFFF
  | 0x1A => 0xFFFF
  | _ => 0

/-- An outcome with its next state rewritten. -/
def mapNext (f : State → State) : Host.Outcome State Fault Refusal → Host.Outcome State Fault Refusal
  | .next s => .next (f s)
  | .fault r => .fault r
  | .refused r => .refused r

/-! ## Invariants -/

/-- An input that a host can give (R5, R110, R111): not an output form of the block. -/
def Input.isHost : Input → Bool
  | .run (.host _) | .writeArg0 _ | .writeArg1 _ | .writeCmd _ | .writeMem _ _ => true
  | .run (.hdInstruction _) | .run (.hdDataByte _) | .run (.nibblePayload _) | .run (.probePayload _)
  | .run (.backlightPayload _) => false

/-- What holds between transactions: R54 (1) to (8), R39, the legal ranges of R42, R44, R45, R48 and R43, the canonical form of
memory, and that the inputs to come are a host's. -/
structure Inv (s : State) : Prop where
  /-- R54 (1). -/
  notInitialized : s.seq.initialized = false → s.seq = .reset ∧ s.err = .reset
  /-- R54 (2). -/
  nested : s.seq.nested = true ↔ s.seq.active = .init
  /-- R54 (3). -/
  subStepZero : s.seq.active ≠ .init → s.seq.subStep = 0
  /-- R54 (4). -/
  idleSetup : s.seq.active = .idle → s.seq.sub = .setup
  /-- R54 (5). -/
  settleProbe : subState s.seq.sub = some .settle → s.seq.active = .init ∧ s.seq.subStep.toNat ≤ 2
  /-- R54 (6). -/
  nibbleOnlyProbe : s.seq.nibbleOnly = true → s.seq.active = .init ∧ s.seq.subStep.toNat ≤ 2
  /-- R54 (7). -/
  printIndex : s.seq.active = .print → s.seq.par.index.toNat < s.seq.par.len.toNat
  /-- R54 (8). -/
  errCount : s.err.errCount.toNat ≤ 9
  /-- R39. -/
  fontLines : configLegal s.cfg = true
  /-- R42: 11 to 15 are unreachable. -/
  activeAssigned : ∀ k, s.seq.active ≠ .unassigned k
  /-- R44: only the eight combinations are reachable. -/
  subLegal : (subState s.seq.sub).isSome = true
  /-- R48: the legal values are 0 to 8. -/
  subStepLegal : s.seq.subStep.toNat ≤ 8
  /-- R45: a tick. -/
  waitStartTick : s.seq.waitStart < tickModulus s
  /-- R291: coordinates that passed the check. -/
  moveGeometry : s.seq.active = .moveAbs → geometryOk s.seq.par.line s.seq.par.column s = true
  /-- The canonical form of host memory. -/
  memory : Memory.wf s.mem = true
  /-- The inputs to come are a host's. -/
  hostInputs : ∀ e ∈ s.inputs, e.isHost = true

end Sys2Proof.Machine
end

