-- ==== Sys2Proof/Certificates/Slice0/Obligations.lean ====
section
/-!
DEFINITION. The statements for the provers, from the numbered rules of spec/. A title or docstring that names a log entry rests on
a choice of the model there.
-/

open Sys2Proof Sys2Proof.Machine

/-! ## Encodings -/

/-- Every instruction is read back from its encoding, every operand at every value (30_encoding.md sections 1 to 3). -/
def Obligations.DecodeOfEncode : Prop := ∀ i : Instr, decode (encode i) = some i

/-- What decodes is the encoding of what it decodes to: a transaction in the bits R113 assigns, a byte or payload whole
(30_encoding.md sections 1 to 3). -/
def Obligations.EncodeOfDecoded : Prop :=
  (∀ (t : Txn) (i : Instr), decode (.host t) = some i →
    encode i = .host ⟨t.cmd, t.arg0 &&& argMask0 t.cmd, t.arg1 &&& argMask1 t.cmd⟩) ∧
    ∀ (c : Code) (i : Instr), (∀ t, c ≠ .host t) → decode c = some i → encode i = c

/-- R114: argument bits that R113 does not assign neither fail the transaction nor change any state. -/
def Obligations.UnassignedArgumentBitsIgnored : Prop :=
  ∀ (s : State) (rest : List Input) (t t' : Txn), t.cmd = t'.cmd → t.arg0 &&& argMask0 t.cmd = t'.arg0 &&& argMask0 t.cmd →
    t.arg1 &&& argMask1 t.cmd = t'.arg1 &&& argMask1 t.cmd →
    mapNext (fun u => u.withPort { u.port with arg0 := 0, arg1 := 0 }) (step (s.withInputs (.run (.host t) :: rest))) =
      mapNext (fun u => u.withPort { u.port with arg0 := 0, arg1 := 0 }) (step (s.withInputs (.run (.host t') :: rest)))

/-- The CMD values that select no row of the command-code map (30_encoding.md section 1) are 0x00, 0x06 to 0x0F and 0x1B to 0xFF, whatever the arguments. -/
def Obligations.UnassignedCommandsAreTheRest : Prop :=
  ∀ t : Txn, decode (.host t) = none ↔
    t.cmd.toNat = 0 ∨ (0x06 ≤ t.cmd.toNat ∧ t.cmd.toNat ≤ 0x0F) ∨ 0x1B ≤ t.cmd.toNat

/-- The decoder refuses these words of 30_encoding.md section 3 (log entry 10): with RS = 0 the byte 0x00, SET_CGRAM_ADDR, 0x03, and
CURSOR_SHIFT and FUNCTION_SET with bits 1 to 0 non-zero; a payload with RW = 1. -/
def Obligations.ForbiddenEncodingsRefused : Prop :=
  (∀ b : Byte, b = 0x00 ∨ b = 0x03 ∨ (0x40 ≤ b.toNat ∧ b.toNat ≤ 0x7F) ∨
      (0x10 ≤ b.toNat ∧ b.toNat ≤ 0x3F ∧ b &&& 0x03 ≠ 0) → decode (.hdInstruction b) = none) ∧
    ∀ p : Byte, p.getLsbD 1 = true →
      decode (.nibblePayload p) = none ∧ decode (.probePayload p) = none ∧ decode (.backlightPayload p) = none

/-- Words written out from 30_encoding.md decode to the instructions they stand for. -/
def Obligations.SpecWordsDecode : Prop :=
  decode (.host ⟨0x01, 0x00000CA7, 0⟩) = some (.init ⟨0x27, true, false, 0b10, true, false, false, false, 0, 0⟩) ∧
    decode (.host ⟨0x17, 0x00000501, 0⟩) = some (.moveCursorToCoord 1 5) ∧
    decode (.host ⟨0x1A, 0x00001000, 0xFFFF0002⟩) = some (.print 0x1000 2) ∧
    decode (.hdInstruction 0xC5) = some (.hdSetDdramAddr 0x45) ∧
    decode (.nibblePayload 0x4D) = some (.payRaise 0x4 true true) ∧
    decode (.probePayload 0x38) = some (.payProbeFall true)

/-- The payload of a raise or a fall as a number, `16 nib + 8 bl + 4 en + rs` (30_encoding.md section 2); and what the display
latches from the four payloads of a byte, whatever payload stood before: the high nibble, then the low nibble, with the byte's RS;
and the nibble pairs are read back as the byte, a probe's pair as one nibble, a backlight payload as nothing
(40_byte_transfer.md section 4, 30_encoding.md section 3; log entry 17). -/
def Obligations.BytePayloadsLatchTheByte : Prop :=
  (∀ (n : Nibble) (bl en rs : Bool),
    (payloadByte n bl en rs).toNat = 16 * n.toNat + 8 * bl.toNat + 4 * en.toNat + rs.toNat) ∧
    ∀ (prev b : Byte) (bl rs : Bool),
      latchedFrom prev (bytePayloads b bl rs) = [(b.extractLsb' 4 4, rs), (b.extractLsb' 0 4, rs)] ∧
        (∀ cs, reconstruct ((bytePayloads b bl rs).map .nibblePayload ++ cs) = .byte b :: reconstruct cs) ∧
        (∀ cs, reconstruct ((probePayloads bl).map .probePayload ++ cs) = .probe 0x3 :: reconstruct cs) ∧
        ∀ cs ds, reconstruct (cs ++ .backlightPayload prev :: ds) = reconstruct (cs ++ ds)

/-! ## The step -/

/-- A step runs the decoded instruction: the next input is taken, a transaction's arguments stand at the port, and the rest is
exec (log entries 1, 5 and 9). Without an input nothing changes (log entry 11). -/
def Obligations.StepRunsTheDecodedInstruction : Prop :=
  (∀ (s : State) (c : Code) (rest : List Input) (i : Instr), s.inputs = .run c :: rest → decode c = some i →
    step s = exec i (latchArgs c { s with inputs := rest }) ∧
      (∀ t, c = .host t → latchArgs c s = { s with port := { s.port with arg0 := t.arg0, arg1 := t.arg1 } }) ∧
      ((∀ t, c ≠ .host t) → latchArgs c s = s)) ∧
    ∀ s : State, s.inputs = [] → step s = .next s

/-- An unassigned CMD (30_encoding.md section 1) returns INVALID_ARGUMENT with DATA 0 and changes no state, in every device state. Beside the outputs
only the port's argument words (log entry 9) and the list of inputs (log entry 1) show that the transaction was made. -/
def Obligations.UnassignedCommandChangesNothing : Prop :=
  ∀ (s : State) (t : Txn) (rest : List Input), s.inputs = .run (.host t) :: rest →
    (t.cmd.toNat = 0 ∨ (0x06 ≤ t.cmd.toNat ∧ t.cmd.toNat ≤ 0x0F) ∨ 0x1B ≤ t.cmd.toNat) →
    step s = .next { s with inputs := rest, port := ⟨t.arg0, t.arg1, .invalidArgument, 0⟩ }

/-- The register port (30_encoding.md section 1; log entry 9): writing ARG0, ARG1 and CMD runs the transaction with those words, and STATUS,
DATA and the argument words read back. -/
def Obligations.PortWritesRunTheTransaction : Prop :=
  (∀ (s : State) (a b : Word) (c : Byte) (rest : List Input),
    s.inputs = .writeArg0 a :: .writeArg1 b :: .writeCmd c :: rest →
    ∃ u v, step s = .next u ∧ step u = .next v ∧
      step v = step { s with inputs := .run (.host ⟨c, a, b⟩) :: rest }) ∧
    ∀ (s : State) (st : Status) (d : Word),
      portRead 0x0C (answered st d s) = some (st.code.setWidth 32) ∧ portRead 0x10 (answered st d s) = some d ∧
        portRead 0x04 s = some s.port.arg0 ∧ portRead 0x08 s = some s.port.arg1

/-- A host write is seen by every later read of its byte and by no read of another (20_memory.md sections 1 and 4; log entry 1). -/
def Obligations.HostWriteIsRead : Prop :=
  ∀ (s : State) (addr : Word) (v : Byte) (rest : List Input), s.inputs = .writeMem addr v :: rest →
    ∃ t, step s = .next t ∧ memGet t.mem addr.toNat = some v ∧ (∀ x, x ≠ addr.toNat → memGet t.mem x = memGet s.mem x) ∧
      t = { s with inputs := rest, mem := t.mem }

/-- R9: the build is fixed for the lifetime of an instance; no host transaction changes it. -/
def Obligations.BuildIsFixed : Prop := ∀ s t : State, step s = .next t → t.build = s.build

/-- No instruction writes host memory (00_scope.md section 6, 20_memory.md section 1), every byte reads as before; nor does one touch
the build, the inputs to come or the port's argument words. That RESET, too, leaves the argument words is the model's choice (log
entry 16). -/
def Obligations.NoInstructionWritesHostMemory : Prop :=
  ∀ (i : Instr) (s t : State), exec i s = .next t → (∀ a, memGet t.mem a = memGet s.mem a) ∧ Untouched s t

/-- Host memory is read by the character fetch alone (20_memory.md sections 1 and 4): replacing memory by one that agrees at the
address of the character PROCESS fetches changes no outcome of any instruction. -/
def Obligations.MemoryIsSeenByTheFetchAlone : Prop :=
  ∀ (i : Instr) (s : State) (m : List Host.Cell),
    (i = .process → s.seq.active = .print → s.seq.sub = .setup →
      memGet m (fetchAddr s).toNat = memGet s.mem (fetchAddr s).toNat) →
    exec i (s.withMem m) = mapNext (fun t => t.withMem m) (exec i s)

/-- Which transaction returns which status, in every state (60_exceptions.md section 2). -/
def Obligations.ReturnedStatuses : Prop :=
  ∀ (i : Instr) (s t : State), exec i s = .next t →
    ((∃ a, i = .init a) → t.port.status ∈ [.ok, .invalidArgument, .wrongState]) ∧
      (i = .reset ∨ i = .getState ∨ i = .readDiag → t.port.status = .ok) ∧
      (i = .process → t.port.status ∈ [.ok, .notInitialized, .i2cBusy, .i2cInvalidAddress, .i2cNotResponding,
        .i2cMalformedRequest, .timebaseFailure, .maxConsecutiveErrors]) ∧
      (isOperation i = true → t.port.status ∈ [.ok, .notInitialized, .deviceBusy] ∨
        (t.port.status = .invalidArgument ∧ ((∃ l c, i = .moveCursorToCoord l c) ∨ ∃ b n, i = .print b n)) ∨
        (t.port.status = .nullReference ∧ ∃ b n, i = .print b n))

/-! ## Reset and the queries -/

/-- R380: every register of a new instance holds its reset value. -/
def Obligations.PowerOnRegisters : Prop :=
  State.reset.cfg = ⟨0, false, false, 0, false, false, false, false, 0, 0⟩ ∧
    State.reset.seq = ⟨false, .idle, ⟨0, 0, .left, 0, 0, 0⟩, ⟨true, false, false, false⟩, 0, 0, false, false, false, false, 0, false⟩ ∧
    State.reset.diag = ⟨0, 0⟩ ∧ State.reset.err = ⟨.ok, 0⟩ ∧ State.reset.port = ⟨0, 0, .ok, 0⟩ ∧
    devState State.reset = .notInitialized

/-- RESET returns OK, puts every register at its power-on value and touches nothing else (41_sequencer.md section 5,
70_reset_and_hazards.md section 1); that the port's argument words are among what it leaves is the model's choice (log entry 16). -/
def Obligations.ResetCommand : Prop :=
  ∀ s : State, exec .reset s =
    .next (answered .ok 0
      { s with cfg := State.reset.cfg, seq := State.reset.seq, diag := State.reset.diag, err := State.reset.err })

/-- GET_STATE returns the device state of R53 and READ_DIAG the diagnostic fields of R119, in every state, and neither writes
anything (41_sequencer.md section 4); the codes of the statuses and of the device states (60_exceptions.md section 1, 10_state.md
section 5). -/
def Obligations.QueryCommands : Prop :=
  ∀ s : State,
    exec .getState s =
      .next (answered .ok
        (if s.seq.initialized = false then 0 else if s.seq.active = .init then 1 else if s.seq.active = .idle then 2 else 3) s) ∧
    ∃ d : Word, exec .readDiag s = .next (answered .ok d s) ∧
      d.extractLsb' 0 8 = s.diag.lastByte ∧ d.extractLsb' 8 8 = s.diag.lastPayload ∧
      d.extractLsb' 16 8 = s.err.lastError.code ∧ d.extractLsb' 24 4 = s.err.errCount ∧
      d.extractLsb' 28 2 = (devState s).code ∧ d.extractLsb' 30 2 = 0 ∧
      [DevState.notInitialized, .initializing, .ready, .processing].map DevState.code = [0, 1, 2, 3] ∧
      [Status.ok, .invalidArgument, .nullReference, .notInitialized, .deviceBusy, .wrongState, .i2cInvalidAddress,
        .i2cNotResponding, .i2cMalformedRequest, .i2cBusy, .timebaseFailure, .maxConsecutiveErrors].map Status.code =
        [0, 1, 2, 3, 4, 5, 6, 7, 8, 9, 10, 11]

/-! ## INIT -/

/-- INIT: WRONG_STATE when initialized, whatever the arguments; else INVALID_ARGUMENT for two lines with the 5x10 font, each
changing nothing; else the configuration is loaded and the bootstrap started, with no external call (42_bootstrap.md section 1). -/
def Obligations.InitCommand : Prop :=
  ∀ (s : State) (a : DisplayConfig),
    exec (.init a) s =
      if s.seq.initialized = true then .next (answered .wrongState 0 s)
      else if a.twoLines = true ∧ a.font5x10 = true then .next (answered .invalidArgument 0 s)
      else
        .next (answered .ok 0
          { s with
            cfg := a
            seq := { s.seq with
              initialized := true, active := .init, subStep := 0, nested := true, par := ⟨0, 0, .left, 0, 0, 0⟩
              sub := ⟨true, false, false, false⟩, nibbleOnly := false }
            err := ⟨.ok, 0⟩ })

/-! ## The public operations -/

/-- R382: in NotInitialized, PROCESS and every public operation return NOT_INITIALIZED with no side effect, and INIT, RESET,
GET_STATE, READ_DIAG and the unassigned codes do not return it. -/
def Obligations.NotInitializedRefuses : Prop :=
  (∀ (s : State) (t : Txn) (rest : List Input), s.seq.initialized = false → s.inputs = .run (.host t) :: rest →
    decode (.host t) = none → ∃ u, step s = .next u ∧ u.port.status = .invalidArgument) ∧
    ∀ (i : Instr) (s : State), s.seq.initialized = false →
    ((i = .process ∨ isOperation i = true) → exec i s = .next (answered .notInitialized 0 s)) ∧
      ((∃ a, i = .init a) ∨ i = .reset ∨ i = .getState ∨ i = .readDiag →
        ∃ t, exec i s = .next t ∧ t.port.status ≠ .notInitialized)

/-- R299: in Processing a public operation other than a preempting toggle returns DEVICE_BUSY and writes nothing. -/
def Obligations.BusyRefusalChangesNothing : Prop :=
  ∀ (i : Instr) (s : State), isOperation i = true → devState s = .processing →
    (isToggle i = true → s.build.preemptToggles = false) → exec i s = .next (answered .deviceBusy 0 s)

/-- While Initializing every public operation, toggles included, returns DEVICE_BUSY and writes nothing (43_public_ops.md
section 1). -/
def Obligations.BootstrapRefusesOperations : Prop :=
  ∀ (i : Instr) (s : State), isOperation i = true → devState s = .initializing →
    exec i s = .next (answered .deviceBusy 0 s)

/-- CLEAR, HOME, MOVE_RELATIVE, SHIFT_DISPLAY, SET_BACKLIGHT and SET_ENTRY_MODE in Ready write their field, load their command and
write nothing else (43_public_ops.md sections 1, 2, 4 and 5). -/
def Obligations.ReadyOperationsLoad : Prop :=
  ∀ (s : State) (d : Direction) (b : Bool) (m : BitVec 2), devState s = .ready →
    let loaded := fun (c : DisplayConfig) (a : Active) (p : CmdParams) =>
      Host.Outcome.next (φ := Fault) (ρ := Refusal) (answered .ok 0
        { s with
          cfg := c
          seq := { s.seq with
            active := a, nested := false, subStep := 0, par := p, sub := ⟨true, false, false, false⟩, nibbleOnly := false } })
    exec .clear s = loaded s.cfg .clear ⟨0, 0, .left, 0, 0, 0⟩ ∧
      exec .home s = loaded s.cfg .home ⟨0, 0, .left, 0, 0, 0⟩ ∧
      exec (.moveRelative d) s = loaded s.cfg .moveRel ⟨0, 0, d, 0, 0, 0⟩ ∧
      exec (.shiftDisplay d) s = loaded s.cfg .shiftDisplay ⟨0, 0, d, 0, 0, 0⟩ ∧
      exec (.setBacklight b) s = loaded { s.cfg with backlight := b } .backlight ⟨0, 0, .left, 0, 0, 0⟩ ∧
      exec (.setEntryMode m) s = loaded { s.cfg with entryMode := m } .entryMode ⟨0, 0, .left, 0, 0, 0⟩

/-- The three toggles, in Ready and, in a preempting build, in Processing: each writes its flag and loads DISPLAY_CONTROLS, the
transfer restarting at SETUP (43_public_ops.md sections 1 and 3). -/
def Obligations.TogglesLoad : Prop :=
  ∀ (s : State) (b : Bool), (devState s = .ready ∨ (devState s = .processing ∧ s.build.preemptToggles = true)) →
    let loaded := fun (c : DisplayConfig) =>
      Host.Outcome.next (φ := Fault) (ρ := Refusal) (answered .ok 0
        { s with
          cfg := c
          seq := { s.seq with
            active := .displayControls, nested := false, subStep := 0, par := ⟨0, 0, .left, 0, 0, 0⟩
            sub := ⟨true, false, false, false⟩, nibbleOnly := false } })
    exec (.setDisplayOnOff b) s = loaded { s.cfg with displayEnabled := b } ∧
      exec (.setCursorVisible b) s = loaded { s.cfg with cursorVisible := b } ∧
      exec (.setBlinkingCursor b) s = loaded { s.cfg with cursorBlink := b }

/-- MOVE_CURSOR_TO_COORD in Ready: a coordinate inside the geometry of R289 loads MOVE_ABS; every other returns
INVALID_ARGUMENT and changes nothing (43_public_ops.md section 5). -/
def Obligations.MoveCursorChecksGeometry : Prop :=
  ∀ (s : State) (line column : Byte), devState s = .ready →
    exec (.moveCursorToCoord line column) s =
      if (if s.cfg.twoLines then line.toNat ≤ 1 ∧ column.toNat ≤ 39 else line.toNat = 0 ∧ column.toNat ≤ 79) then
        .next (answered .ok 0
          { s with seq := { s.seq with
            active := .moveAbs, nested := false, subStep := 0, par := ⟨line, column, .left, 0, 0, 0⟩
            sub := ⟨true, false, false, false⟩, nibbleOnly := false } })
      else .next (answered .invalidArgument 0 s)

/-- PRINT in Ready: the null reference first, then the zero length, each changing nothing; else PRINT is loaded and host memory
is not read (43_public_ops.md section 6). -/
def Obligations.PrintChecksItsArguments : Prop :=
  ∀ (s : State) (buf : Word) (len : BitVec 16), devState s = .ready →
    exec (.print buf len) s =
      if buf = 0 then .next (answered .nullReference 0 s)
      else if len = 0 then .next (answered .invalidArgument 0 s)
      else
        .next (answered .ok 0
          { s with seq := { s.seq with
            active := .print, nested := false, subStep := 0, par := ⟨0, 0, .left, buf, len, 0⟩
            sub := ⟨true, false, false, false⟩, nibbleOnly := false } })

/-- The frame of the public operations and of INIT, accepted or refused (43_public_ops.md section 1): no external call, the
diagnostic and current-byte registers unchanged, and the error registers unchanged but by INIT. -/
def Obligations.OperationsFrame : Prop :=
  ∀ (i : Instr) (s t : State), (isOperation i = true ∨ ∃ a, i = .init a) → exec i s = .next t →
    t.env = s.env ∧ t.diag = s.diag ∧ t.seq.curByte = s.seq.curByte ∧ t.seq.curRs = s.seq.curRs ∧
      t.seq.plBl = s.seq.plBl ∧ t.seq.plRs = s.seq.plRs ∧ t.seq.waitStart = s.seq.waitStart ∧ Untouched s t ∧
      (isOperation i = true → t.err = s.err ∧ t.seq.initialized = s.seq.initialized ∧ t.cfg.i2cAddr = s.cfg.i2cAddr ∧
        t.cfg.twoLines = s.cfg.twoLines ∧ t.cfg.font5x10 = s.cfg.font5x10 ∧ t.cfg.tbId = s.cfg.tbId ∧
        t.cfg.i2cId = s.cfg.i2cId)

/-- Who writes the configuration and the error registers (10_state.md sections 1 and 4): the error registers PROCESS, INIT and
RESET alone; of the configuration, beside INIT and RESET, the address, the geometry, the font and the ids by
nothing; the backlight and the entry mode by their operations; the cursor flags by their toggles; the display flag by its toggle
and by PROCESS, which can only clear it, in bootstrap step 5. -/
def Obligations.RegisterWriters : Prop :=
  ∀ (i : Instr) (s t : State), exec i s = .next t → i ≠ .reset → (∀ a, i ≠ .init a) →
    (i ≠ .process → t.err = s.err) ∧
      t.cfg.i2cAddr = s.cfg.i2cAddr ∧ t.cfg.twoLines = s.cfg.twoLines ∧ t.cfg.font5x10 = s.cfg.font5x10 ∧
      t.cfg.tbId = s.cfg.tbId ∧ t.cfg.i2cId = s.cfg.i2cId ∧
      ((∀ b, i ≠ .setBacklight b) → t.cfg.backlight = s.cfg.backlight) ∧
      ((∀ m, i ≠ .setEntryMode m) → t.cfg.entryMode = s.cfg.entryMode) ∧
      ((∀ b, i ≠ .setCursorVisible b) → t.cfg.cursorVisible = s.cfg.cursorVisible) ∧
      ((∀ b, i ≠ .setBlinkingCursor b) → t.cfg.cursorBlink = s.cfg.cursorBlink) ∧
      ((∀ b, i ≠ .setDisplayOnOff b) → t.cfg.displayEnabled = s.cfg.displayEnabled ∨
        (i = .process ∧ s.seq.active = .init ∧ s.seq.subStep = 5 ∧ s.seq.sub.firstPass = true ∧
          t.cfg.displayEnabled = false))

/-- R41: `initialized` is 0 in NotInitialized and 1 otherwise; it is written to 1 by a successful INIT and to 0 by RESET, and
nothing else writes it; its reset value is 0. -/
def Obligations.InitializedWriters : Prop :=
  State.reset.seq.initialized = false ∧ (∀ s : State, s.seq.initialized = false ↔ devState s = .notInitialized) ∧
    ∀ (i : Instr) (s t : State), exec i s = .next t →
      (i = .reset → t.seq.initialized = false) ∧
        ((∃ a, i = .init a) → t.port.status = .ok → t.seq.initialized = true) ∧
        (i ≠ .reset → ¬((∃ a, i = .init a) ∧ t.port.status = .ok) → t.seq.initialized = s.seq.initialized)

/-! ## PROCESS: the dispatch and the accounting -/

/-- R202: in Ready PROCESS runs no handler, makes no external call and returns OK. -/
def Obligations.ProcessInReady : Prop :=
  ∀ s : State, devState s = .ready → exec .process s = .next (answered .ok 0 { s with err := ⟨.ok, 0⟩ })

/-- The accounting of a handler's status: OK and I2C_BUSY clear the counter, TIMEBASE_FAILURE keeps it, a transport failure
counts, and the tenth escalates; `last_error` takes the final status (60_exceptions.md section 2). -/
def Obligations.ProcessAccounts : Prop :=
  ∀ (s u : State) (st : Status), s.seq.initialized = true → handler s = .ok (st, u) →
    (st = .ok ∨ st = .i2cBusy → exec .process s = .next (answered st 0 { u with err := ⟨st, 0⟩ })) ∧
      (st = .timebaseFailure → exec .process s = .next (answered st 0 { u with err := ⟨st, u.err.errCount⟩ })) ∧
      ((st = .i2cInvalidAddress ∨ st = .i2cNotResponding ∨ st = .i2cMalformedRequest) → u.err.errCount.toNat < 9 →
        exec .process s = .next (answered st 0 { u with err := ⟨st, u.err.errCount + 1⟩ })) ∧
      ((st = .i2cInvalidAddress ∨ st = .i2cNotResponding ∨ st = .i2cMalformedRequest) → u.err.errCount = 9 →
        exec .process s =
          .next (answered .maxConsecutiveErrors 0
            { u with
              seq := { u.seq with
                active := .idle, nested := false, subStep := 0, par := ⟨0, 0, .left, 0, 0, 0⟩
                sub := ⟨true, false, false, false⟩, nibbleOnly := false }
              err := ⟨.maxConsecutiveErrors, 0⟩ }))

/-- The escalation is surfaced once: after it the device is Ready, initialized, with its configuration, the command's parameters and
position are cleared, and the next PROCESS returns OK (60_exceptions.md section 2, 41_sequencer.md section 2). -/
def Obligations.EscalationSurfacesOnce : Prop :=
  ∀ s t : State, exec .process s = .next t → t.port.status = .maxConsecutiveErrors →
    devState t = .ready ∧ t.err = ⟨.maxConsecutiveErrors, 0⟩ ∧ t.seq.sub = ⟨true, false, false, false⟩ ∧
      t.seq.par = ⟨0, 0, .left, 0, 0, 0⟩ ∧ t.seq.nested = false ∧ t.seq.subStep = 0 ∧ t.seq.nibbleOnly = false ∧
      t.cfg = s.cfg ∧ t.diag = s.diag ∧
      ∃ u, exec .process t = .next u ∧ u.port.status = .ok ∧ devState u = .ready

/-- The faults of PROCESS: an unassigned active command, a bootstrap step above 8, an unlisted combination of the sub-state bits
under a handler that reads them, and a character the platform does not admit (10_state.md section 2, 20_memory.md section 1; log entries 7 and 8). -/
def Obligations.ProcessFaults : Prop :=
  ∀ s : State, s.seq.initialized = true →
    (∀ k, s.seq.active = .unassigned k → exec .process s = .fault .activeUnassigned) ∧
      (s.seq.active = .init → 9 ≤ s.seq.subStep.toNat → exec .process s = .fault .subStepOutOfRange) ∧
      (Transfers s → subState s.seq.sub = none → exec .process s = .fault .subStateUnreachable) ∧
      (s.seq.active = .print → s.seq.sub = .setup → memGet s.mem (s.seq.par.buf + s.seq.par.index.setWidth 32).toNat = none →
        exec .process s = .fault .hostReadNotAdmitted)

/-- One PROCESS makes at most one I2CWrite; the entries of SETUP and of H_TICK and L_TICK make none. -/
def Obligations.OneWritePerProcess : Prop :=
  ∀ s t : State, exec .process s = .next t →
    writeCount t ≤ writeCount s + 1 ∧
      (Transfers s → (subState s.seq.sub = some .setup ∨ subState s.seq.sub = some .hTick ∨ subState s.seq.sub = some .lTick) →
        writeCount t = writeCount s)

/-- R122: payload bit 1 (RW) is 0 in every payload written, accepted or not; an instruction adds at most one payload to the
output. -/
def Obligations.NoReadPayload : Prop :=
  ∀ (i : Instr) (s t : State), exec i s = .next t →
    (output t = output s ∨ ∃ p, output t = output s ++ [p] ∧ p.getLsbD 1 = false) ∧
      ∀ id addr p n r, Call.i2cWrite id addr p n r ∈ t.env.trace →
        Call.i2cWrite id addr p n r ∈ s.env.trace ∨ p.getLsbD 1 = false

/-- R174: a PROCESS that returns a transport error leaves every register as it found it, the error registers aside; one that
returns TIMEBASE_FAILURE does so too, or is the raise that was written before the tick failed, which leaves H_TICK or L_TICK. -/
def Obligations.FailuresArePrecise : Prop :=
  ∀ s t : State, exec .process s = .next t →
    (t.port.status.isTransport = true → SameRegisters s t ∧ output t = output s) ∧
      (t.port.status = .timebaseFailure →
        (SameRegisters s t ∧ output t = output s) ∨
          (t.cfg = s.cfg ∧ t.seq = { s.seq with sub := { s.seq.sub with pulseSent := true, waiting := false } } ∧
            (subState t.seq.sub = some .hTick ∨ subState t.seq.sub = some .lTick) ∧
            t.diag = { s.diag with lastPayload := pay true s } ∧ output t = output s ++ [pay true s]))

/-! ## PROCESS: the byte transfer -/

/-- The bytes of the single-byte commands, as numbers (41_sequencer.md section 2, 43_public_ops.md section 5). -/
def Obligations.CommandBytes : Prop :=
  ∀ s : State,
    cmdByte .clear s = some 0x01 ∧ cmdByte .home s = some 0x02 ∧
      (∃ b, cmdByte .displayControls s = some b ∧
        b.toNat = 8 + 4 * s.cfg.displayEnabled.toNat + 2 * s.cfg.cursorVisible.toNat + s.cfg.cursorBlink.toNat) ∧
      (∃ b, cmdByte .entryMode s = some b ∧ b.toNat = 4 + s.cfg.entryMode.toNat) ∧
      (∃ b, cmdByte .moveRel s = some b ∧ b.toNat = 0x10 + if s.seq.par.dir = .right then 4 else 0) ∧
      (∃ b, cmdByte .shiftDisplay s = some b ∧ b.toNat = 0x18 + if s.seq.par.dir = .right then 4 else 0) ∧
      (geometryOk s.seq.par.line s.seq.par.column s = true →
        ∃ b, cmdByte .moveAbs s = some b ∧
          b.toNat = 0x80 + (if s.cfg.twoLines then s.seq.par.line.toNat * 0x40 else 0) + s.seq.par.column.toNat)

/-- R290: inside the geometry the DDRAM address is `(line × 0x40 if two-line mode else 0) + column`, at most 0x67 in two-line mode
and 0x4F in one-line mode, and `0x80 | ddram_addr` does not carry out of bit 6. -/
def Obligations.DdramAddressFits : Prop :=
  ∀ (s : State) (line column : Byte), geometryOk line column s = true →
    (ddramAddr line column s).toNat = (if s.cfg.twoLines then line.toNat * 0x40 else 0) + column.toNat ∧
      (ddramAddr line column s).toNat ≤ (if s.cfg.twoLines then 0x67 else 0x4F) ∧
      (0x80 ||| ddramAddr line column s).toNat = 0x80 + (ddramAddr line column s).toNat

/-- The setup entry of a single-byte command: the byte is computed and the sub-state becomes H_RAISE, with no external call
(41_sequencer.md section 2, 40_byte_transfer.md section 2). -/
def Obligations.ProcessSetupEntry : Prop :=
  ∀ (s : State) (b : Byte), s.seq.initialized = true → cmdByte s.seq.active s = some b → s.seq.sub = .setup →
    exec .process s =
      .next (answered .ok 0
        { s with
          seq := { s.seq with
            curByte := b, curRs := false, nibbleOnly := false, plBl := s.cfg.backlight, plRs := false
            sub := ⟨false, false, false, false⟩ }
          err := ⟨.ok, 0⟩ })

/-- The raise of the pending nibble. Accepted, the tick is read right after it in the same PROCESS: recorded, the wait begins;
failed, H_TICK or L_TICK is left and TIMEBASE_FAILURE returned. Refused, the sub-state stays for the next PROCESS
(40_byte_transfer.md section 3, 60_exceptions.md section 2). -/
def Obligations.ProcessRaises : Prop :=
  ∀ s : State, s.seq.initialized = true → Transfers s →
    (subState s.seq.sub = some .hRaise ∨ subState s.seq.sub = some .lRaise) →
    ∃ t, exec .process s = .next t ∧ t.cfg = s.cfg ∧ Untouched s t ∧
      (i2cEvent s = .ok →
        t.diag = { s.diag with lastPayload := pay true s } ∧
          t.env.trace = .getTick s.cfg.tbId (tickAnswer s)
            :: .i2cWrite s.cfg.i2cId s.cfg.i2cAddr (pay true s) s.build.i2cMaxRetries .ok :: s.env.trace ∧
          (∀ k, tickAnswer s = .ok k → Reports .ok t ∧ t.err.errCount = 0 ∧
            t.seq = { s.seq with waitStart := k, sub := { s.seq.sub with pulseSent := true, waiting := true } }) ∧
          (tickAnswer s = .fail → Reports .timebaseFailure t ∧ t.err.errCount = s.err.errCount ∧
            t.seq = { s.seq with sub := { s.seq.sub with pulseSent := true, waiting := false } })) ∧
      (i2cEvent s ≠ .ok → WriteRefused (pay true s) [] s t)

/-- The tick after a raise whose tick failed (40_byte_transfer.md section 3): recorded on its own, with no write. -/
def Obligations.ProcessTicks : Prop :=
  ∀ s : State, s.seq.initialized = true → Transfers s →
    (subState s.seq.sub = some .hTick ∨ subState s.seq.sub = some .lTick) →
    ∃ t, exec .process s = .next t ∧ t.cfg = s.cfg ∧ t.diag = s.diag ∧ Untouched s t ∧
      t.env.trace = .getTick s.cfg.tbId (tickAnswer s) :: s.env.trace ∧
      ((∃ k, tickAnswer s = .ok k ∧ Reports .ok t ∧ t.err.errCount = 0 ∧
          t.seq = { s.seq with waitStart := k, sub := { s.seq.sub with waiting := true } }) ∨
        (tickAnswer s = .fail ∧ Reports .timebaseFailure t ∧ t.err.errCount = s.err.errCount ∧ t.seq = s.seq))

/-- The pulse is waited out: below `T_EN` nothing changes and PROCESS returns OK (40_byte_transfer.md section 3). -/
def Obligations.ProcessWaits : Prop :=
  ∀ (s : State) (e : Nat), s.seq.initialized = true → Transfers s →
    (subState s.seq.sub = some .hWait ∨ subState s.seq.sub = some .lWait) → elapsedAnswer s.seq.waitStart s = .ok e →
    e < (if s.build.tbRes = .us then 37 else 1) →
    ∃ t, exec .process s = .next t ∧ Reports .ok t ∧ t.err.errCount = 0 ∧ SameRegisters s t ∧ Untouched s t ∧
      t.env.trace = .durationSince s.cfg.tbId s.seq.waitStart (.ok e) :: s.env.trace

/-- The fall of a high nibble: at or above `T_EN` it is written, and the low nibble is next; refused, the sub-state stays for the
next PROCESS; where Elapsed fails, TIMEBASE_FAILURE is returned and nothing else happens (40_byte_transfer.md section 3,
60_exceptions.md section 2). -/
def Obligations.ProcessFallsHigh : Prop :=
  ∀ s : State, s.seq.initialized = true → Transfers s → subState s.seq.sub = some .hWait → s.seq.nibbleOnly = false →
    (∀ e, elapsedAnswer s.seq.waitStart s = .ok e → (if s.build.tbRes = .us then 37 else 1) ≤ e →
      ∃ t, exec .process s = .next t ∧
        (i2cEvent s = .ok → Reports .ok t ∧ t.err.errCount = 0 ∧ t.cfg = s.cfg ∧ Untouched s t ∧
          t.seq = { s.seq with sub := ⟨false, true, false, false⟩ } ∧ t.diag = { s.diag with lastPayload := pay false s } ∧
          output t = output s ++ [pay false s]) ∧
        (i2cEvent s ≠ .ok → WriteRefused (pay false s) [waitCheck s] s t)) ∧
      (elapsedAnswer s.seq.waitStart s = .fail → ∃ t, exec .process s = .next t ∧ TimebaseFailed (waitCheck s) s t)

/-- The fall that completes a transfer: `last_byte` takes the byte, and a single-byte command ends, a bootstrap stage gives way to
the next, and PRINT moves to its next character or ends; refused, the sub-state stays for the next PROCESS; where Elapsed fails,
TIMEBASE_FAILURE is returned and nothing else happens (40_byte_transfer.md section 3, 41_sequencer.md section 2,
43_public_ops.md section 6, 60_exceptions.md section 2). -/
def Obligations.ProcessCompletesTransfer : Prop :=
  ∀ s : State, s.seq.initialized = true → Transfers s →
    (subState s.seq.sub = some .lWait ∨ (subState s.seq.sub = some .hWait ∧ s.seq.nibbleOnly = true)) →
    (∀ e, elapsedAnswer s.seq.waitStart s = .ok e → (if s.build.tbRes = .us then 37 else 1) ≤ e →
      ∃ t, exec .process s = .next t ∧
        (i2cEvent s = .ok → Reports .ok t ∧ t.err.errCount = 0 ∧ t.cfg = s.cfg ∧ Untouched s t ∧
          t.diag = ⟨s.seq.curByte, pay false s⟩ ∧ output t = output s ++ [pay false s] ∧
          t.seq =
            (let q : Seq := { s.seq with sub := ⟨true, false, false, false⟩, nibbleOnly := false }
             let done : Seq := { q with active := .idle, subStep := 0, nested := false, par := ⟨0, 0, .left, 0, 0, 0⟩ }
             if s.seq.active = .print then
               if s.seq.par.index + 1 = s.seq.par.len then done
               else { q with par := { s.seq.par with index := s.seq.par.index + 1 } }
             else if s.seq.nested = true then { q with subStep := s.seq.subStep + 1 }
             else done)) ∧
        (i2cEvent s ≠ .ok → WriteRefused (pay false s) [waitCheck s] s t)) ∧
      (elapsedAnswer s.seq.waitStart s = .fail → ∃ t, exec .process s = .next t ∧ TimebaseFailed (waitCheck s) s t)

/-- The pulse width (40_byte_transfer.md section 4): whenever a PROCESS in H_WAIT or L_WAIT writes a payload, Elapsed answered at least `T_EN` in that transaction, from a tick
reference that is `wait_start`. -/
def Obligations.PulseWidthLowerBound : Prop :=
  ∀ s t : State, exec .process s = .next t → Transfers s →
    (subState s.seq.sub = some .hWait ∨ subState s.seq.sub = some .lWait) → output t ≠ output s →
    ∃ e, elapsedAnswer s.seq.waitStart s = .ok e ∧ (if s.build.tbRes = .us then 37 else 1) ≤ e ∧
      Call.durationSince s.cfg.tbId s.seq.waitStart (.ok e) ∈ t.env.trace

/-- The monotone timebase (60_exceptions.md section 4; log entries 3 and 14): for a reference tick taken at count T, two successive Ok answers of Elapsed
do not decrease until `2 ^ TICK_BITS` ticks have passed, and are the ticks passed. -/
def Obligations.TimebaseIsMonotone : Prop :=
  ∀ (s u v : State) (since e e' : Nat), since ≤ s.env.now → elapsed (since % tickModulus s) s = (.ok e, u) →
    elapsed (since % tickModulus s) u = (.ok e', v) → v.env.now < since + tickModulus s →
    e ≤ e' ∧ e' = v.env.now - since

/-! ## PROCESS: backlight, print, bootstrap -/

/-- R298: the BACKLIGHT handler writes one payload, 0x08 or 0x00, with no setup entry and no timed wait; accepted, the command is
finished and `last_byte` stays; refused, its status is returned and it is retried on the next PROCESS. -/
def Obligations.ProcessBacklight : Prop :=
  ∀ s : State, s.seq.initialized = true → s.seq.active = .backlight →
    let p : Byte := if s.cfg.backlight then 0x08 else 0x00
    ∃ t, exec .process s = .next t ∧ t.cfg = s.cfg ∧ Untouched s t ∧
      t.env.trace = .i2cWrite s.cfg.i2cId s.cfg.i2cAddr p s.build.i2cMaxRetries (i2cEvent s) :: s.env.trace ∧
      (i2cEvent s = .ok → Reports .ok t ∧ t.err.errCount = 0 ∧ t.diag = ⟨s.diag.lastByte, p⟩ ∧
        t.seq = { s.seq with
          active := .idle, subStep := 0, nested := false, par := ⟨0, 0, .left, 0, 0, 0⟩
          sub := ⟨true, false, false, false⟩, nibbleOnly := false }) ∧
      (i2cEvent s ≠ .ok → WriteRefused p [] s t)

/-- The setup entry of a character reads its byte, at `p_buf + p_index` modulo 2^32, and takes it up with RS = 1; no write is made
(43_public_ops.md section 6, 20_memory.md section 1). -/
def Obligations.ProcessFetchesCharacter : Prop :=
  ∀ (s : State) (c : Byte), s.seq.initialized = true → s.seq.active = .print → s.seq.sub = .setup →
    memGet s.mem ((s.seq.par.buf.toNat + s.seq.par.index.toNat) % 2 ^ 32) = some c →
    ∃ t, exec .process s = .next t ∧ Reports .ok t ∧ t.err.errCount = 0 ∧ t.cfg = s.cfg ∧ t.diag = s.diag ∧
      t.seq = { s.seq with
        curByte := c, curRs := true, nibbleOnly := false, plBl := s.cfg.backlight, plRs := true
        sub := ⟨false, false, false, false⟩ } ∧
      t.env.trace = .memRead (s.seq.par.buf + s.seq.par.index.setWidth 32) c :: s.env.trace ∧ Untouched s t

/-- The first entry of a probe records the tick and waits in SETTLE; with a failing timebase nothing is written
(42_bootstrap.md section 3). -/
def Obligations.ProcessProbeSetup : Prop :=
  ∀ s : State, s.seq.initialized = true → s.seq.active = .init → s.seq.subStep.toNat ≤ 2 → s.seq.sub = .setup →
    ∃ t, exec .process s = .next t ∧ t.cfg = s.cfg ∧ t.diag = s.diag ∧ output t = output s ∧ Untouched s t ∧
      t.env.trace = .getTick s.cfg.tbId (tickAnswer s) :: s.env.trace ∧
      ((∃ k, tickAnswer s = .ok k ∧ Reports .ok t ∧ t.err.errCount = 0 ∧
          t.seq = { s.seq with
            curByte := 0x30, curRs := false, nibbleOnly := true, plBl := s.cfg.backlight, plRs := false, waitStart := k
            sub := ⟨false, false, false, true⟩ }) ∨
        (tickAnswer s = .fail ∧ Reports .timebaseFailure t ∧ t.err.errCount = s.err.errCount ∧ t.seq = s.seq))

/-- SETTLE waits the settle time of its probe, 40 ms, 5 ms and 1 ms, and then raises in the same PROCESS and reads the tick right
after: recorded, the pulse wait begins; failed, H_TICK is left and TIMEBASE_FAILURE returned. Refused, SETTLE stays for the next
PROCESS; where Elapsed fails, TIMEBASE_FAILURE is returned and nothing else happens (42_bootstrap.md section 3, 60_exceptions.md
section 2). -/
def Obligations.ProcessSettles : Prop :=
  ∀ s : State, s.seq.initialized = true → s.seq.active = .init → s.seq.subStep.toNat ≤ 2 →
    subState s.seq.sub = some .settle →
    let limit : Nat := (if s.seq.subStep = 0 then 40 else if s.seq.subStep = 1 then 5 else 1) *
      (if s.build.tbRes = .us then 1000 else 1)
    let tick : TickAnswer := tickAnswer (elapsed s.seq.waitStart s).2
    (∀ e, elapsedAnswer s.seq.waitStart s = .ok e → e < limit →
      ∃ t, exec .process s = .next t ∧ Reports .ok t ∧ t.err.errCount = 0 ∧ SameRegisters s t ∧ Untouched s t ∧
        t.env.trace = waitCheck s :: s.env.trace) ∧
      (∀ e, elapsedAnswer s.seq.waitStart s = .ok e → limit ≤ e →
        ∃ t, exec .process s = .next t ∧
          (i2cEvent s = .ok → t.cfg = s.cfg ∧ Untouched s t ∧ t.diag = { s.diag with lastPayload := pay true s } ∧
            t.env.trace = .getTick s.cfg.tbId tick
              :: .i2cWrite s.cfg.i2cId s.cfg.i2cAddr (pay true s) s.build.i2cMaxRetries .ok :: waitCheck s :: s.env.trace ∧
            (∀ k, tick = .ok k → Reports .ok t ∧ t.err.errCount = 0 ∧
              t.seq = { s.seq with waitStart := k, sub := ⟨false, false, true, true⟩ }) ∧
            (tick = .fail → Reports .timebaseFailure t ∧ t.err.errCount = s.err.errCount ∧
              t.seq = { s.seq with sub := ⟨false, false, true, false⟩ })) ∧
          (i2cEvent s ≠ .ok → WriteRefused (pay true s) [waitCheck s] s t)) ∧
      (elapsedAnswer s.seq.waitStart s = .fail → ∃ t, exec .process s = .next t ∧ TimebaseFailed (waitCheck s) s t)

/-- The setup entries of bootstrap steps 3 to 7 take up 0x20, the function set, the display control with the display flag
cleared, 0x01 and the entry mode (42_bootstrap.md section 4). -/
def Obligations.BootstrapBytes : Prop :=
  ∀ s : State, s.seq.initialized = true → s.seq.active = .init → s.seq.sub = .setup → 3 ≤ s.seq.subStep.toNat →
    s.seq.subStep.toNat ≤ 7 →
    ∃ t, exec .process s = .next t ∧ Reports .ok t ∧ t.env = s.env ∧ t.diag = s.diag ∧
      t.cfg = (if s.seq.subStep = 5 then { s.cfg with displayEnabled := false } else s.cfg) ∧
      ∃ b, t.seq = { s.seq with
          curByte := b, curRs := false, nibbleOnly := false, plBl := s.cfg.backlight, plRs := false
          sub := ⟨false, false, false, false⟩ } ∧
        b.toNat =
          (if s.seq.subStep = 3 then 0x20
          else if s.seq.subStep = 4 then 0x20 + 8 * s.cfg.twoLines.toNat + 4 * s.cfg.font5x10.toNat
          else if s.seq.subStep = 5 then 0x08 + 2 * s.cfg.cursorVisible.toNat + s.cfg.cursorBlink.toNat
          else if s.seq.subStep = 6 then 0x01
          else 0x04 + s.cfg.entryMode.toNat)

/-- R253: step 8 is a PROCESS of its own: no external call, OK, and the device is Ready. -/
def Obligations.BootstrapEnds : Prop :=
  ∀ s : State, s.seq.initialized = true → s.seq.active = .init → s.seq.subStep = 8 →
    ∃ t, exec .process s = .next t ∧ Reports .ok t ∧ t.env = s.env ∧ t.cfg = s.cfg ∧ t.diag = s.diag ∧ devState t = .ready ∧
      t.seq = { s.seq with
        active := .idle, subStep := 0, nested := false, par := ⟨0, 0, .left, 0, 0, 0⟩
        sub := ⟨true, false, false, false⟩, nibbleOnly := false }

/-! ## The output forms as operations (log entry 5) -/

/-- A byte form (hdClear, hdHome, hdEntryModeSet, hdDisplayControl, hdCursorShift, hdFunctionSet, hdSetDdramAddr, hdData) takes its
byte up for transfer, as `setup_byte` does (40_byte_transfer.md section 2). FUNCTION_SET with the
data-length bit set is taken up as a probe, high nibble only (log entry 6; 42_bootstrap.md section 3). -/
def Obligations.ByteFormsAreTakenUp : Prop :=
  (∀ (i : Instr) (s : State) (b : Byte) (rs : Bool), formByte i = some (b, rs) → (∀ n f, i ≠ .hdFunctionSet true n f) →
    exec i s =
      .next (answered .ok 0
        { s with seq := { s.seq with
          curByte := b, curRs := rs, nibbleOnly := false, plBl := s.cfg.backlight, plRs := rs
          sub := ⟨false, false, false, false⟩ } })) ∧
    ∀ (s : State) (n f : Bool), ∃ t, exec (.hdFunctionSet true n f) s = .next t ∧ t.cfg = s.cfg ∧ t.diag = s.diag ∧
      t.err = s.err ∧ output t = output s ∧ Untouched s t ∧
      ((∃ k, tickAnswer s = .ok k ∧ t.port.status = .ok ∧
          t.seq = { s.seq with
            curByte := functionSetByte true n f, curRs := false, nibbleOnly := true, plBl := s.cfg.backlight, plRs := false
            waitStart := k, sub := ⟨false, false, false, true⟩ }) ∨
        (tickAnswer s = .fail ∧ t.port.status = .timebaseFailure ∧ t.seq = s.seq))

/-- A payload form (payRaise, payFall, payBacklight, payProbeRaise, payProbeFall) is one I2CWrite to the configured target, as `write_payload` makes it (40_byte_transfer.md section 1):
accepted, `last_payload` and the expander take it; refused, no register changes and the status is the transport's, by the table of
60_exceptions.md section 1. -/
def Obligations.PayloadFormsAreWritten : Prop :=
  ∀ (i : Instr) (s : State) (p : Byte), formPayload i = some p →
    ∃ t, exec i s = .next t ∧ t.cfg = s.cfg ∧ t.seq = s.seq ∧ t.err = s.err ∧ t.diag.lastByte = s.diag.lastByte ∧
      Untouched s t ∧
      t.env.trace = .i2cWrite s.cfg.i2cId s.cfg.i2cAddr p s.build.i2cMaxRetries (i2cEvent s) :: s.env.trace ∧
      (i2cEvent s = .ok → t.port.status = .ok ∧ t.diag.lastPayload = p ∧ expanderLatch t = some p) ∧
      (i2cEvent s ≠ .ok → t.port.status = mapTransport (i2cEvent s) ∧
        mapTransport (i2cEvent s) = (match i2cEvent s with
          | .ok => .ok
          | .busy => .i2cBusy
          | .invalidAddress => .i2cInvalidAddress
          | .notResponding => .i2cNotResponding
          | .malformed => .i2cMalformedRequest
          | .other _ => .i2cNotResponding) ∧
        t.diag.lastPayload = s.diag.lastPayload ∧ expanderLatch t = expanderLatch s)

/-! ## Runs -/

/-- A single-byte command with every call answered at once: 5 PROCESS transactions, not fewer, write its four payloads and end in
Ready, and the payloads read back as its byte. The BACKLIGHT command takes one, whose payload, known by its place in the command
sequence, is dropped on reading back (40_byte_transfer.md section 4, 70_reset_and_hazards.md section 3, 30_encoding.md section 3;
log entry 17). -/
def Obligations.ByteCommandInFiveProcesses : Prop :=
  (∀ (s : State) (b : Byte), s.seq.initialized = true → s.seq.nested = false → cmdByte s.seq.active s = some b →
    s.seq.sub = .setup → AnswersAtOnce 4 4 s →
    (∀ k, k ≤ 4 → ∃ u, processTimes k s = .next u ∧ devState u = .processing) ∧
      ∃ t, processTimes 5 s = .next t ∧ devState t = .ready ∧ t.port.status = .ok ∧ t.diag.lastByte = b ∧
        output t = output s ++ bytePayloads b s.cfg.backlight false ∧
        reconstruct (runOutput (List.replicate 5 .process) s) = [.byte b]) ∧
    ∀ s : State, s.seq.initialized = true → s.seq.active = .backlight → i2cEvent s = .ok →
      (∃ t, processTimes 1 s = .next t ∧ devState t = .ready ∧ t.port.status = .ok) ∧
        runOutput [.process] s = [.backlightPayload (backlightByte s.cfg.backlight)] ∧
        reconstruct (runOutput [.process] s) = []

/-- The bootstrap with every call answered at once: 35 PROCESS transactions write the 26 payloads of R254, which read back
as three probe nibbles and five bytes, and end in Ready with the display flag cleared (42_bootstrap.md section 5, 30_encoding.md
section 3; log entry 17). -/
def Obligations.BootstrapWritesTwentySixPayloads : Prop :=
  ∀ s : State, s.seq.initialized = true → s.seq.active = .init → s.seq.nested = true → s.seq.subStep = 0 →
    s.seq.sub = .setup → AnswersAtOnce 26 32 s →
    ∃ t, processTimes 35 s = .next t ∧ devState t = .ready ∧ t.port.status = .ok ∧
      t.cfg = { s.cfg with displayEnabled := false } ∧ output t = output s ++ bootstrapPayloads s.cfg ∧
      (bootstrapPayloads s.cfg).length = 26 ∧
      reconstruct (runOutput (List.replicate 35 .process) s) =
        [.probe 0x3, .probe 0x3, .probe 0x3, .byte 0x20, .byte (functionSetByte false s.cfg.twoLines s.cfg.font5x10),
          .byte (displayControlByte false s.cfg.cursorVisible s.cfg.cursorBlink), .byte 0x01,
          .byte (entryModeByte (s.cfg.entryMode.getLsbD 1) (s.cfg.entryMode.getLsbD 0))]

/-- PRINT of n characters with every call answered at once: 5n PROCESS transactions write 4n payloads, all with RS = 1, which read
back as the buffer's bytes in order (43_public_ops.md section 6, 20_memory.md section 2, 30_encoding.md section 3; log entry
17). -/
def Obligations.PrintSendsTheBuffer : Prop :=
  ∀ (s : State) (bytes : List Byte), bytes ≠ [] → s.seq.initialized = true → s.seq.active = .print → s.seq.sub = .setup →
    s.seq.par.len.toNat = s.seq.par.index.toNat + bytes.length →
    (∀ j (h : j < bytes.length),
      memGet s.mem ((s.seq.par.buf.toNat + (s.seq.par.index.toNat + j)) % 2 ^ 32) = some bytes[j]) →
    AnswersAtOnce (4 * bytes.length) (4 * bytes.length) s →
    ∃ t ps, processTimes (5 * bytes.length) s = .next t ∧ devState t = .ready ∧ output t = output s ++ ps ∧
      ps.length = 4 * bytes.length ∧
      runOutput (List.replicate (5 * bytes.length) .process) s = ps.map .nibblePayload ∧
      reconstruct (ps.map .nibblePayload) = bytes.map .byte ∧ ∀ p ∈ ps, p.getLsbD 0 = true

/-! ## Invariants -/

/-- The invariants of R54 and R39 hold at reset (10_state.md section 5). -/
def Obligations.InvariantsAtReset : Prop := Inv State.reset

/-- Every step keeps the invariants of R54 and R39 (10_state.md section 5). -/
def Obligations.InvariantsKept : Prop := ∀ s t : State, Inv s → step s = .next t → Inv t

/-- From a state of the invariants a step answers a next state, unless PRINT is at the setup entry of a character the platform does
not admit (10_state.md sections 2 and 5, 20_memory.md section 1). -/
def Obligations.InvariantsExcludeFaults : Prop :=
  ∀ s : State, Inv s →
    (s.seq.active = .print → s.seq.sub = .setup → ∃ c, memGet s.mem (fetchAddr s).toNat = some c) →
    ∃ t, step s = .next t
end

