-- ==== Sys2Proof/Laws/State.lean ====
section
/-!
SUPPORT. One lemma per field per named update of State, so that no proof unfolds an update.
-/

namespace Sys2Proof.Machine

variable (s : State)

/-! ### withCfg -/

@[simp] theorem State.withCfg_build (c : DisplayConfig) : (s.withCfg c).build = s.build := rfl
@[simp] theorem State.withCfg_cfg (c : DisplayConfig) : (s.withCfg c).cfg = c := rfl
@[simp] theorem State.withCfg_seq (c : DisplayConfig) : (s.withCfg c).seq = s.seq := rfl
@[simp] theorem State.withCfg_diag (c : DisplayConfig) : (s.withCfg c).diag = s.diag := rfl
@[simp] theorem State.withCfg_err (c : DisplayConfig) : (s.withCfg c).err = s.err := rfl
@[simp] theorem State.withCfg_port (c : DisplayConfig) : (s.withCfg c).port = s.port := rfl
@[simp] theorem State.withCfg_env (c : DisplayConfig) : (s.withCfg c).env = s.env := rfl
@[simp] theorem State.withCfg_mem (c : DisplayConfig) : (s.withCfg c).mem = s.mem := rfl
@[simp] theorem State.withCfg_inputs (c : DisplayConfig) : (s.withCfg c).inputs = s.inputs := rfl

/-! ### withSeq -/

@[simp] theorem State.withSeq_build (q : Seq) : (s.withSeq q).build = s.build := rfl
@[simp] theorem State.withSeq_cfg (q : Seq) : (s.withSeq q).cfg = s.cfg := rfl
@[simp] theorem State.withSeq_seq (q : Seq) : (s.withSeq q).seq = q := rfl
@[simp] theorem State.withSeq_diag (q : Seq) : (s.withSeq q).diag = s.diag := rfl
@[simp] theorem State.withSeq_err (q : Seq) : (s.withSeq q).err = s.err := rfl
@[simp] theorem State.withSeq_port (q : Seq) : (s.withSeq q).port = s.port := rfl
@[simp] theorem State.withSeq_env (q : Seq) : (s.withSeq q).env = s.env := rfl
@[simp] theorem State.withSeq_mem (q : Seq) : (s.withSeq q).mem = s.mem := rfl
@[simp] theorem State.withSeq_inputs (q : Seq) : (s.withSeq q).inputs = s.inputs := rfl

/-! ### withDiag -/

@[simp] theorem State.withDiag_build (d : Diag) : (s.withDiag d).build = s.build := rfl
@[simp] theorem State.withDiag_cfg (d : Diag) : (s.withDiag d).cfg = s.cfg := rfl
@[simp] theorem State.withDiag_seq (d : Diag) : (s.withDiag d).seq = s.seq := rfl
@[simp] theorem State.withDiag_diag (d : Diag) : (s.withDiag d).diag = d := rfl
@[simp] theorem State.withDiag_err (d : Diag) : (s.withDiag d).err = s.err := rfl
@[simp] theorem State.withDiag_port (d : Diag) : (s.withDiag d).port = s.port := rfl
@[simp] theorem State.withDiag_env (d : Diag) : (s.withDiag d).env = s.env := rfl
@[simp] theorem State.withDiag_mem (d : Diag) : (s.withDiag d).mem = s.mem := rfl
@[simp] theorem State.withDiag_inputs (d : Diag) : (s.withDiag d).inputs = s.inputs := rfl

/-! ### withErr -/

@[simp] theorem State.withErr_build (e : Err) : (s.withErr e).build = s.build := rfl
@[simp] theorem State.withErr_cfg (e : Err) : (s.withErr e).cfg = s.cfg := rfl
@[simp] theorem State.withErr_seq (e : Err) : (s.withErr e).seq = s.seq := rfl
@[simp] theorem State.withErr_diag (e : Err) : (s.withErr e).diag = s.diag := rfl
@[simp] theorem State.withErr_err (e : Err) : (s.withErr e).err = e := rfl
@[simp] theorem State.withErr_port (e : Err) : (s.withErr e).port = s.port := rfl
@[simp] theorem State.withErr_env (e : Err) : (s.withErr e).env = s.env := rfl
@[simp] theorem State.withErr_mem (e : Err) : (s.withErr e).mem = s.mem := rfl
@[simp] theorem State.withErr_inputs (e : Err) : (s.withErr e).inputs = s.inputs := rfl

/-! ### withPort -/

@[simp] theorem State.withPort_build (p : Port) : (s.withPort p).build = s.build := rfl
@[simp] theorem State.withPort_cfg (p : Port) : (s.withPort p).cfg = s.cfg := rfl
@[simp] theorem State.withPort_seq (p : Port) : (s.withPort p).seq = s.seq := rfl
@[simp] theorem State.withPort_diag (p : Port) : (s.withPort p).diag = s.diag := rfl
@[simp] theorem State.withPort_err (p : Port) : (s.withPort p).err = s.err := rfl
@[simp] theorem State.withPort_port (p : Port) : (s.withPort p).port = p := rfl
@[simp] theorem State.withPort_env (p : Port) : (s.withPort p).env = s.env := rfl
@[simp] theorem State.withPort_mem (p : Port) : (s.withPort p).mem = s.mem := rfl
@[simp] theorem State.withPort_inputs (p : Port) : (s.withPort p).inputs = s.inputs := rfl

/-! ### withEnv -/

@[simp] theorem State.withExt_build (x : Env) : (s.withEnv x).build = s.build := rfl
@[simp] theorem State.withExt_cfg (x : Env) : (s.withEnv x).cfg = s.cfg := rfl
@[simp] theorem State.withExt_seq (x : Env) : (s.withEnv x).seq = s.seq := rfl
@[simp] theorem State.withExt_diag (x : Env) : (s.withEnv x).diag = s.diag := rfl
@[simp] theorem State.withExt_err (x : Env) : (s.withEnv x).err = s.err := rfl
@[simp] theorem State.withExt_port (x : Env) : (s.withEnv x).port = s.port := rfl
@[simp] theorem State.withExt_env (x : Env) : (s.withEnv x).env = x := rfl
@[simp] theorem State.withExt_mem (x : Env) : (s.withEnv x).mem = s.mem := rfl
@[simp] theorem State.withExt_inputs (x : Env) : (s.withEnv x).inputs = s.inputs := rfl

/-! ### withMem -/

@[simp] theorem State.withMem_build (m : List Host.Cell) : (s.withMem m).build = s.build := rfl
@[simp] theorem State.withMem_cfg (m : List Host.Cell) : (s.withMem m).cfg = s.cfg := rfl
@[simp] theorem State.withMem_seq (m : List Host.Cell) : (s.withMem m).seq = s.seq := rfl
@[simp] theorem State.withMem_diag (m : List Host.Cell) : (s.withMem m).diag = s.diag := rfl
@[simp] theorem State.withMem_err (m : List Host.Cell) : (s.withMem m).err = s.err := rfl
@[simp] theorem State.withMem_port (m : List Host.Cell) : (s.withMem m).port = s.port := rfl
@[simp] theorem State.withMem_env (m : List Host.Cell) : (s.withMem m).env = s.env := rfl
@[simp] theorem State.withMem_mem (m : List Host.Cell) : (s.withMem m).mem = m := rfl
@[simp] theorem State.withMem_inputs (m : List Host.Cell) : (s.withMem m).inputs = s.inputs := rfl

/-! ### withInputs -/

@[simp] theorem State.withInputs_build (l : List Input) : (s.withInputs l).build = s.build := rfl
@[simp] theorem State.withInputs_cfg (l : List Input) : (s.withInputs l).cfg = s.cfg := rfl
@[simp] theorem State.withInputs_seq (l : List Input) : (s.withInputs l).seq = s.seq := rfl
@[simp] theorem State.withInputs_diag (l : List Input) : (s.withInputs l).diag = s.diag := rfl
@[simp] theorem State.withInputs_err (l : List Input) : (s.withInputs l).err = s.err := rfl
@[simp] theorem State.withInputs_port (l : List Input) : (s.withInputs l).port = s.port := rfl
@[simp] theorem State.withInputs_env (l : List Input) : (s.withInputs l).env = s.env := rfl
@[simp] theorem State.withInputs_mem (l : List Input) : (s.withInputs l).mem = s.mem := rfl
@[simp] theorem State.withInputs_inputs (l : List Input) : (s.withInputs l).inputs = l := rfl
end Sys2Proof.Machine
end

