-- ==== Sys2Proof/Laws/Memory.lean ====
section
/-!
SUPPORT. The laws of host memory: a read after a write, and that a write keeps the canonical form.
-/

namespace Sys2Proof.Machine

/-- A read of the written address gives the written byte. -/
theorem memGet_memPut_same (m : List Host.Cell) (x : Nat) (v : Byte) : memGet (memPut m x v) x = some v := by
  induction m with
  | nil => simp [memPut, memGet]
  | cons c rest ih =>
    obtain ⟨a, b⟩ := c
    unfold memPut
    split
    · simp [memGet]
    · split
      · simp [memGet]
      · have h : a ≠ x := fun h => by simp_all
        simp [memGet, h, ih]

/-- A write leaves every other address alone. -/
theorem memGet_memPut_other (m : List Host.Cell) {x y : Nat} (v : Byte) (h : y ≠ x) :
    memGet (memPut m x v) y = memGet m y := by
  induction m with
  | nil => simp [memPut, memGet, h.symm]
  | cons c rest ih =>
    obtain ⟨a, b⟩ := c
    unfold memPut
    split
    · simp [memGet, h.symm]
    · split
      · next hxa => subst hxa; simp [memGet, h.symm]
      · by_cases ha : a = y <;> simp [memGet, ha, ih]

/-- A write above the lower bound keeps the order above it. -/
theorem memWfFrom_memPut {m : List Host.Cell} {lo x : Nat} (v : Byte) (hm : memWfFrom lo m = true) (hlo : lo ≤ x)
    (hx : x < 2 ^ 32) : memWfFrom lo (memPut m x v) = true := by
  induction m generalizing lo with
  | nil => simp_all [memPut, memWfFrom]
  | cons c rest ih =>
    obtain ⟨a, b⟩ := c
    simp only [memWfFrom, Bool.and_eq_true, decide_eq_true_eq] at hm
    obtain ⟨⟨ha, hb⟩, hr⟩ := hm
    unfold memPut
    split
    · next hxa => simp only [memWfFrom, Bool.and_eq_true, decide_eq_true_eq]; exact ⟨⟨hlo, hx⟩, ⟨by omega, hb⟩, hr⟩
    · split
      · next hxa => subst hxa; simp only [memWfFrom, Bool.and_eq_true, decide_eq_true_eq]; exact ⟨⟨ha, hb⟩, hr⟩
      · simp only [memWfFrom, Bool.and_eq_true, decide_eq_true_eq]
        exact ⟨⟨ha, hb⟩, ih hr (by omega)⟩

/-- A write keeps the canonical form. -/
theorem memPut_wf {m : List Host.Cell} {x : Nat} (v : Byte) (hm : Memory.wf m = true) (hx : x < 2 ^ 32) :
    Memory.wf (memPut m x v) = true :=
  memWfFrom_memPut v hm (Nat.zero_le x) hx

/-- The memory of the state after reset has the canonical form. -/
theorem reset_memory_wf : Memory.wf State.reset.mem = true := rfl

end Sys2Proof.Machine
end

