-- ==== Sys2Proof/Laws/Ops.lean ====
section
/-!
SUPPORT. One lemma per shared operation that says what it can do: the external calls, the answer to the host, loading and ending
a command, accounting, and the shape of a PROCESS step. Proofs cite these and do not unfold the operations.
-/

namespace Sys2Proof.Machine

variable (s : State)

/-! ## The external calls: what they leave alone -/

@[simp] theorem afterTimebase_build (c : Call) : (afterTimebase c s).build = s.build := rfl
@[simp] theorem afterTimebase_cfg (c : Call) : (afterTimebase c s).cfg = s.cfg := rfl
@[simp] theorem afterTimebase_seq (c : Call) : (afterTimebase c s).seq = s.seq := rfl
@[simp] theorem afterTimebase_diag (c : Call) : (afterTimebase c s).diag = s.diag := rfl
@[simp] theorem afterTimebase_err (c : Call) : (afterTimebase c s).err = s.err := rfl
@[simp] theorem afterTimebase_port (c : Call) : (afterTimebase c s).port = s.port := rfl
@[simp] theorem afterTimebase_mem (c : Call) : (afterTimebase c s).mem = s.mem := rfl
@[simp] theorem afterTimebase_inputs (c : Call) : (afterTimebase c s).inputs = s.inputs := rfl
@[simp] theorem afterTimebase_trace (c : Call) : (afterTimebase c s).env.trace = c :: s.env.trace := rfl
@[simp] theorem afterTimebase_i2c (c : Call) : (afterTimebase c s).env.i2c = s.env.i2c := rfl
@[simp] theorem afterTimebase_tbCalls (c : Call) : (afterTimebase c s).env.tbCalls = s.env.tbCalls + 1 := rfl
@[simp] theorem afterTimebase_i2cCalls (c : Call) : (afterTimebase c s).env.i2cCalls = s.env.i2cCalls := rfl
@[simp] theorem afterTimebase_timebase (c : Call) : (afterTimebase c s).env.timebase = s.env.timebase.tail := rfl

@[simp] theorem afterI2c_build (p : Byte) : (afterI2c p s).build = s.build := rfl
@[simp] theorem afterI2c_cfg (p : Byte) : (afterI2c p s).cfg = s.cfg := rfl
@[simp] theorem afterI2c_seq (p : Byte) : (afterI2c p s).seq = s.seq := rfl
@[simp] theorem afterI2c_diag (p : Byte) : (afterI2c p s).diag = s.diag := rfl
@[simp] theorem afterI2c_err (p : Byte) : (afterI2c p s).err = s.err := rfl
@[simp] theorem afterI2c_port (p : Byte) : (afterI2c p s).port = s.port := rfl
@[simp] theorem afterI2c_mem (p : Byte) : (afterI2c p s).mem = s.mem := rfl
@[simp] theorem afterI2c_inputs (p : Byte) : (afterI2c p s).inputs = s.inputs := rfl
@[simp] theorem afterI2c_trace (p : Byte) : (afterI2c p s).env.trace =
    .i2cWrite s.cfg.i2cId s.cfg.i2cAddr p s.build.i2cMaxRetries (i2cEvent s) :: s.env.trace := rfl
@[simp] theorem afterI2c_i2c (p : Byte) : (afterI2c p s).env.i2c = s.env.i2c.tail := rfl
@[simp] theorem afterI2c_i2cCalls (p : Byte) : (afterI2c p s).env.i2cCalls = s.env.i2cCalls + 1 := rfl
@[simp] theorem afterI2c_tbCalls (p : Byte) : (afterI2c p s).env.tbCalls = s.env.tbCalls := rfl
@[simp] theorem afterI2c_timebase (p : Byte) : (afterI2c p s).env.timebase = s.env.timebase := rfl
@[simp] theorem afterI2c_now (p : Byte) : (afterI2c p s).env.now = s.env.now := rfl

/-- The count of the timebase after a call: it ran on by some ticks, or the call failed. -/
theorem afterTimebase_now (c : Call) : (afterTimebase c s).env.now = match timebaseEvent s with
    | .runs d => s.env.now + d
    | .fails => s.env.now := rfl

/-- A timebase call leaves the transport's next answer as it was. -/
@[simp] theorem i2cEvent_afterTimebase (c : Call) : i2cEvent (afterTimebase c s) = i2cEvent s := rfl

/-- A write leaves the timebase's next answer as it was. -/
@[simp] theorem tickAnswer_afterI2c (p : Byte) : tickAnswer (afterI2c p s) = tickAnswer s := rfl

/-- A tick is below `2 ^ TICK_BITS`. -/
theorem tickAnswer_lt {v : Nat} (h : tickAnswer s = .ok v) : v < tickModulus s := by
  unfold tickAnswer at h
  split at h
  · cases h; exact Nat.mod_lt _ (Nat.pow_pos (by decide))
  · cases h

/-- A status other than OK maps from every result other than `OK` (R342). -/
theorem mapTransport_isTransport {r : I2cResult} (h : r ≠ .ok) : (mapTransport r).isTransport = true := by
  cases r <;> first | exact absurd rfl h | rfl

/-- `write_payload` (R161): either the payload is accepted and recorded, or nothing but the call happened. -/
theorem writePayload_cases (p : Byte) :
    (i2cEvent s = .ok ∧ writePayload p s = (.ok, (afterI2c p s).withDiag { s.diag with lastPayload := p })) ∨
      (i2cEvent s ≠ .ok ∧ writePayload p s = (mapTransport (i2cEvent s), afterI2c p s) ∧
        (mapTransport (i2cEvent s)).isTransport = true) := by
  unfold writePayload
  by_cases h : i2cEvent s = .ok
  · simp [h]
  · simp [h, mapTransport_isTransport h]

/-! ## The answer to the host, and commands -/

/-- An answer is a next state that differs in the port's outputs alone. -/
theorem answer_eq (st : Status) (d : Word) : answer st d s = .next (answered st d s) := rfl

/-- An answer with DATA 0. -/
theorem respond_eq (st : Status) : respond st s = .next (answered st 0 s) := rfl

@[simp] theorem answered_build (st : Status) (d : Word) : (answered st d s).build = s.build := rfl
@[simp] theorem answered_cfg (st : Status) (d : Word) : (answered st d s).cfg = s.cfg := rfl
@[simp] theorem answered_seq (st : Status) (d : Word) : (answered st d s).seq = s.seq := rfl
@[simp] theorem answered_diag (st : Status) (d : Word) : (answered st d s).diag = s.diag := rfl
@[simp] theorem answered_err (st : Status) (d : Word) : (answered st d s).err = s.err := rfl
@[simp] theorem answered_env (st : Status) (d : Word) : (answered st d s).env = s.env := rfl
@[simp] theorem answered_mem (st : Status) (d : Word) : (answered st d s).mem = s.mem := rfl
@[simp] theorem answered_inputs (st : Status) (d : Word) : (answered st d s).inputs = s.inputs := rfl
@[simp] theorem answered_port (st : Status) (d : Word) :
    (answered st d s).port = { s.port with status := st, data := d } := rfl

/-- `load` (R281) writes the sequencer registers alone. -/
theorem load_eq (a : Active) (p : CmdParams) : load a p s = s.withSeq
    { s.seq with active := a, nested := false, subStep := 0, par := p, sub := .setup, nibbleOnly := false } := rfl

/-- The readiness check passes in Ready, and in Processing for a toggle of a preempting build (R280). -/
theorem readyCheck_ok_iff (toggle : Bool) : readyCheck toggle s = .ok ↔
    s.seq.initialized = true ∧ s.seq.active ≠ .init ∧
      (s.seq.active = .idle ∨ (toggle = true ∧ s.build.preemptToggles = true)) := by
  unfold readyCheck
  cases s.seq.initialized <;> cases toggle <;> cases s.build.preemptToggles <;> cases s.seq.active <;> simp

/-- What the readiness check answers when it does not pass. -/
theorem readyCheck_cases (toggle : Bool) :
    readyCheck toggle s = .ok ∨ readyCheck toggle s = .notInitialized ∨ readyCheck toggle s = .deviceBusy := by
  unfold readyCheck
  split <;> [simp; split <;> [simp; split <;> [simp; split <;> simp]]]

/-! ## Accounting -/

/-- `account` (R343) by its four cases. -/
theorem account_cases (st : Status) :
    ((st = .ok ∨ st = .i2cBusy) ∧ account st s = (st, s.withErr { s.err with errCount := 0 })) ∨
      (st.isTransport = true ∧ s.err.errCount + 1 = errCeiling ∧ account st s = (.maxConsecutiveErrors, escalate s)) ∨
      (st.isTransport = true ∧ s.err.errCount + 1 ≠ errCeiling ∧
        account st s = (st, s.withErr { s.err with errCount := s.err.errCount + 1 })) ∨
      account st s = (st, s) := by
  have hc : ∀ st, countError st s = if s.err.errCount + 1 = errCeiling then (.maxConsecutiveErrors, escalate s)
      else (st, s.withErr { s.err with errCount := s.err.errCount + 1 }) := fun _ => rfl
  generalize s.err.errCount + 1 = n at hc ⊢
  by_cases h : n = errCeiling <;> cases st <;> simp [account, hc, h, Status.isTransport]

/-- `account` (R343) of a refused write that counts: the tenth in a row escalates. -/
theorem account_mapTransport {r : I2cResult} (ho : r ≠ .ok) (hb : r ≠ .busy) : account (mapTransport r) s =
    if s.err.errCount = 9 then (.maxConsecutiveErrors, escalate s)
    else (mapTransport r, s.withErr { s.err with errCount := s.err.errCount + 1 }) := by
  have hc : s.err.errCount + 1 = errCeiling ↔ s.err.errCount = 9 := by
    generalize s.err.errCount = n; revert n; decide
  cases r <;> first | exact absurd rfl ho | exact absurd rfl hb | simp only [mapTransport, account, countError, hc]

/-- A PROCESS step of an initialized block is its handler, then the accounting (R200). -/
theorem execProcess_of_handler {st : Status} {u : State} (hi : s.seq.initialized = true)
    (h : handler s = .ok (st, u)) : exec .process s = endProcess st u := by
  simp [exec, execProcess, hi, h]

/-- A PROCESS step whose handler reaches a fault stops (R42, R44, R81). -/
theorem execProcess_of_fault {f : Fault} (hi : s.seq.initialized = true) (h : handler s = .error f) :
    exec .process s = .fault f := by
  simp [exec, execProcess, hi, h]

/-! ## The sub-state -/

/-- The bits of each named sub-state (R44). -/
theorem subState_eq_some {b : SubBits} {n : SubState} (h : subState b = some n) :
    b = match n with
      | .setup => ⟨true, false, false, false⟩
      | .settle => ⟨false, false, false, true⟩
      | .hRaise => ⟨false, false, false, false⟩
      | .hTick => ⟨false, false, true, false⟩
      | .hWait => ⟨false, false, true, true⟩
      | .lRaise => ⟨false, true, false, false⟩
      | .lTick => ⟨false, true, true, false⟩
      | .lWait => ⟨false, true, true, true⟩ := by
  obtain ⟨f, l, p, w⟩ := b
  cases f <;> cases l <;> cases p <;> cases w <;> simp [subState] at h <;> subst h <;> rfl

@[simp] theorem subState_setup : subState .setup = some .setup := rfl

/-- `drive` at a setup entry runs the setup (R203). -/
theorem drive_setup {f : State → Except Fault (Status × State)} {g : State → State}
    (h : subState s.seq.sub = some .setup) : drive f g s = f s := by
  simp [drive, h]

/-- `drive` elsewhere runs one `send_byte_step` and, when the transfer is done, its end (R203). -/
theorem drive_send {f : State → Except Fault (Status × State)} {g : State → State} {b : SubState} {r : Ran}
    (h : subState s.seq.sub = some b) (hb : b ≠ .setup) (hr : sendByteStep b s = .ok r) :
    drive f g s = .ok (if r.status = .ok then (.ok, if r.done then g r.state else r.state) else (r.status, r.state)) := by
  unfold drive
  rw [h]
  cases b <;> first | exact absurd rfl hb | (simp only [hr]; split <;> rfl)

end Sys2Proof.Machine
end

