-- ==== Sys2Proof/Laws/Transfer.lean ====
section
/-!
SUPPORT. What each step of the byte transfer and each handler can do, one lemma each: proofs about PROCESS cite these and do not
unfold the steps.
-/

namespace Sys2Proof.Machine

variable (s : State)

/-- The call a tick makes. -/
abbrev tickCall : Call := .getTick s.cfg.tbId (tickAnswer s)

/-- The call an elapsed check of the current wait makes. -/
abbrev waitCall : Call := .durationSince s.cfg.tbId s.seq.waitStart (elapsedAnswer s.seq.waitStart s)

/-- The state after the payload p was accepted (R161). -/
abbrev written (p : Byte) : State := (afterI2c p s).withDiag { s.diag with lastPayload := p }

/-- The state of H_TICK or L_TICK, right after an accepted raise (R165). -/
abbrev raised : State :=
  (written s (pay true s)).withSeq { s.seq with sub := { s.seq.sub with pulseSent := true, waiting := false } }

/-- `tick_step` (R167): the tick is recorded, or the timebase failed and only the call happened. -/
theorem tickStep_cases :
    (∃ k, tickAnswer s = .ok k ∧ tickStep s = ⟨.ok, false, (afterTimebase (tickCall s) s).withSeq
        { s.seq with waitStart := k, sub := { s.seq.sub with waiting := true } }⟩) ∨
      (tickAnswer s = .fail ∧ tickStep s = ⟨.timebaseFailure, false, afterTimebase (tickCall s) s⟩) := by
  have hn : tickNow s = (tickAnswer s, afterTimebase (tickCall s) s) := rfl
  have hq : (afterTimebase (tickCall s) s).seq = s.seq := rfl
  unfold tickStep
  rw [hn]
  generalize afterTimebase (tickCall s) s = u at hq ⊢
  cases tickAnswer s <;> simp [hq]

/-- `raise_step` (R165, R166): the raise is accepted and the tick follows, or it is refused and only the call happened. -/
theorem raiseStep_cases :
    (i2cEvent s = .ok ∧ raiseStep s = tickStep (raised s)) ∨
      (i2cEvent s ≠ .ok ∧ (mapTransport (i2cEvent s)).isTransport = true ∧
        raiseStep s = ⟨mapTransport (i2cEvent s), false, afterI2c (pay true s) s⟩) := by
  unfold raiseStep
  rcases writePayload_cases s (pay true s) with ⟨h, hw⟩ | ⟨h, hw, ht⟩
  · exact .inl ⟨h, by simp [hw]⟩
  · refine .inr ⟨h, ht, ?_⟩
    have : mapTransport (i2cEvent s) ≠ .ok := fun e => by simp [e, Status.isTransport] at ht
    simp [hw, this]

/-- `probe_setup` (R245): the probe is taken up, or the timebase failed and only the call happened. -/
theorem probeSetup_cases (b : Byte) :
    (∃ k, tickAnswer s = .ok k ∧ probeSetup b s = (.ok, (afterTimebase (tickCall s) s).withSeq
        { s.seq with
          curByte := b, curRs := false, nibbleOnly := true, plBl := s.cfg.backlight, plRs := false, waitStart := k
          sub := ⟨false, false, false, true⟩ })) ∨
      (tickAnswer s = .fail ∧ probeSetup b s = (.timebaseFailure, afterTimebase (tickCall s) s)) := by
  have hn : tickNow s = (tickAnswer s, afterTimebase (tickCall s) s) := rfl
  have hq : (afterTimebase (tickCall s) s).seq = s.seq := rfl
  have hc : (afterTimebase (tickCall s) s).cfg = s.cfg := rfl
  unfold probeSetup
  rw [hn]
  generalize afterTimebase (tickCall s) s = u at hq hc ⊢
  cases tickAnswer s <;> simp [hq, hc]

/-- `settle_step` (R246): no settle time, a failed timebase, still settling, or the raise. -/
theorem settleStep_cases :
    (settleTime s = none ∧ settleStep s = .error .settleOutsideProbe) ∨
      ∃ limit, settleTime s = some limit ∧
        ((elapsedAnswer s.seq.waitStart s = .fail ∧
            settleStep s = .ok ⟨.timebaseFailure, false, afterTimebase (waitCall s) s⟩) ∨
          ∃ e, elapsedAnswer s.seq.waitStart s = .ok e ∧
            ((e < limit ∧ settleStep s = .ok ⟨.ok, false, afterTimebase (waitCall s) s⟩) ∨
              (limit ≤ e ∧ settleStep s = .ok (raiseStep (afterTimebase (waitCall s) s))))) := by
  have hn : elapsed s.seq.waitStart s = (elapsedAnswer s.seq.waitStart s, afterTimebase (waitCall s) s) := rfl
  unfold settleStep
  rw [hn]
  generalize afterTimebase (waitCall s) s = u
  cases settleTime s with
  | none => simp
  | some limit =>
    cases elapsedAnswer s.seq.waitStart s with
    | fail => simp
    | ok e => by_cases hlt : e < limit <;> simp [hlt, Nat.not_lt.mp]

/-- `fall_step` (R168): a failed timebase, still waiting, a refused fall, or an accepted one. -/
theorem fallStep_cases :
    (elapsedAnswer s.seq.waitStart s = .fail ∧ fallStep s = ⟨.timebaseFailure, false, afterTimebase (waitCall s) s⟩) ∨
      ∃ e, elapsedAnswer s.seq.waitStart s = .ok e ∧
        ((e < tEn s ∧ fallStep s = ⟨.ok, false, afterTimebase (waitCall s) s⟩) ∨
          (tEn s ≤ e ∧ i2cEvent s = .ok ∧
            fallStep s = afterFall (written (afterTimebase (waitCall s) s) (pay false s))) ∨
          (tEn s ≤ e ∧ i2cEvent s ≠ .ok ∧ (mapTransport (i2cEvent s)).isTransport = true ∧
            fallStep s = ⟨mapTransport (i2cEvent s), false, afterI2c (pay false s) (afterTimebase (waitCall s) s)⟩)) := by
  have hn : elapsed s.seq.waitStart s = (elapsedAnswer s.seq.waitStart s, afterTimebase (waitCall s) s) := rfl
  have hp : pay false (afterTimebase (waitCall s) s) = pay false s := rfl
  have hi : i2cEvent (afterTimebase (waitCall s) s) = i2cEvent s := rfl
  unfold fallStep
  rw [hn]
  generalize afterTimebase (waitCall s) s = u at hp hi ⊢
  cases elapsedAnswer s.seq.waitStart s with
  | fail => simp
  | ok e =>
    refine .inr ⟨e, rfl, ?_⟩
    by_cases hlt : e < tEn s
    · exact .inl ⟨hlt, by simp [hlt]⟩
    · rw [← hi]
      rcases writePayload_cases u (pay false s) with ⟨h, hw⟩ | ⟨h, hw, ht⟩
      · exact .inr (.inl ⟨by omega, h, by simp [hlt, hp, hw]⟩)
      · have : mapTransport (i2cEvent u) ≠ .ok := fun e => by simp [e, Status.isTransport] at ht
        exact .inr (.inr ⟨by omega, h, ht, by simp [hlt, hp, hw, this]⟩)

/-- What an accepted fall leaves (R168, R169). -/
theorem afterFall_cases :
    (s.seq.sub.lowerBits = false ∧ s.seq.nibbleOnly = false ∧
        afterFall s = ⟨.ok, false, s.withSeq { s.seq with sub := ⟨s.seq.sub.firstPass, true, false, false⟩ }⟩) ∨
      ((s.seq.sub.lowerBits = true ∨ s.seq.nibbleOnly = true) ∧
        afterFall s = ⟨.ok, true, (s.withDiag { s.diag with lastByte := s.seq.curByte }).withSeq
          { s.seq with sub := .setup, nibbleOnly := false }⟩) := by
  unfold afterFall completeTransfer
  cases h1 : s.seq.sub.lowerBits <;> cases h2 : s.seq.nibbleOnly <;> simp <;> rfl

/-- `run_byte`, `probe_step` and `print_handler` (R203) by the sub-state: an unlisted combination, the setup entry, or one step. -/
theorem drive_cases (f : State → Except Fault (Status × State)) (g : State → State) :
    (subState s.seq.sub = none ∧ drive f g s = .error .subStateUnreachable) ∨
      (s.seq.sub = .setup ∧ drive f g s = f s) ∨
      ∃ b, subState s.seq.sub = some b ∧ b ≠ .setup ∧
        ((∃ e, sendByteStep b s = .error e ∧ drive f g s = .error e) ∨
          ∃ r, sendByteStep b s = .ok r ∧
            drive f g s =
              .ok (if r.status = .ok then (.ok, if r.done then g r.state else r.state) else (r.status, r.state))) := by
  cases hb : subState s.seq.sub with
  | none => exact .inl ⟨rfl, by simp [drive, hb]⟩
  | some b =>
    by_cases h : b = .setup
    · subst h
      exact .inr (.inl ⟨subState_eq_some hb, drive_setup s hb⟩)
    · refine .inr (.inr ⟨b, rfl, h, ?_⟩)
      cases hr : sendByteStep b s with
      | error e => exact .inl ⟨e, rfl, by unfold drive; rw [hb]; cases b <;> simp_all⟩
      | ok r => exact .inr ⟨r, rfl, drive_send s hb h hr⟩

/-- The handlers by the active command (R201). -/
theorem handler_cases :
    (∃ b, cmdByte s.seq.active s = some b ∧ handler s = runByte b s) ∨
      (s.seq.active = .init ∧ handler s = bootstrapHandler s) ∨
      (s.seq.active = .print ∧ handler s = printHandler s) ∨
      (s.seq.active = .backlight ∧ handler s = .ok (backlightHandler s)) ∨
      (∃ k, s.seq.active = .unassigned k ∧ handler s = .error .activeUnassigned) ∨
      (s.seq.active = .idle ∧ handler s = .ok (.ok, s)) := by
  cases h : s.seq.active <;> simp [handler, h, cmdByte]

/-- The bootstrap stages (R242): a probe, a full byte, the last stage, or no stage. -/
theorem bootstrapHandler_cases :
    (s.seq.subStep.toNat ≤ 2 ∧ bootstrapHandler s = probeStep s) ∨
      (s.seq.subStep.toNat ≠ 5 ∧ 3 ≤ s.seq.subStep.toNat ∧ s.seq.subStep.toNat ≤ 7 ∧
        ∃ b, bootstrapHandler s = runByte b s) ∨
      (s.seq.subStep.toNat = 5 ∧
        bootstrapHandler s = runByte (displayControlsCmd (forceDisplayOff s)) (forceDisplayOff s)) ∨
      (s.seq.subStep.toNat = 8 ∧ bootstrapHandler s = .ok (.ok, finish s)) ∨
      (9 ≤ s.seq.subStep.toNat ∧ bootstrapHandler s = .error .subStepOutOfRange) := by
  unfold bootstrapHandler
  have := s.seq.subStep.isLt
  generalize s.seq.subStep.toNat = n at this ⊢
  interval_cases n <;> simp <;> exact ⟨_, rfl⟩

/-- `backlight_handler` (R298): the payload is accepted and the command ends, or it is refused and only the call happened. -/
theorem backlightHandler_cases :
    (i2cEvent s = .ok ∧
        backlightHandler s = (.ok, finish (written s (backlightByte s.cfg.backlight)))) ∨
      (i2cEvent s ≠ .ok ∧ (mapTransport (i2cEvent s)).isTransport = true ∧
        backlightHandler s = (mapTransport (i2cEvent s), afterI2c (backlightByte s.cfg.backlight) s)) := by
  unfold backlightHandler
  rcases writePayload_cases s (backlightByte s.cfg.backlight) with ⟨h, hw⟩ | ⟨h, hw, ht⟩
  · exact .inl ⟨h, by simp [hw]⟩
  · refine .inr ⟨h, ht, ?_⟩
    have : mapTransport (i2cEvent s) ≠ .ok := fun e => by simp [e, Status.isTransport] at ht
    simp [hw, this]

/-- A PROCESS step that answers a next state (R200): not initialized, or a handler's status accounted for. -/
theorem execProcess_next {t : State} (h : exec .process s = .next t) :
    (s.seq.initialized = false ∧ t = answered .notInitialized 0 s) ∨
      ∃ st u, s.seq.initialized = true ∧ handler s = .ok (st, u) ∧
        t = answered (account st u).1 0 (setLastError (account st u).1 (account st u).2) := by
  simp only [exec, execProcess] at h
  cases hi : s.seq.initialized with
  | false => simp [hi, respond_eq] at h; exact .inl ⟨rfl, h.symm⟩
  | true =>
    simp only [hi] at h
    cases hh : handler s with
    | error f => simp [hh] at h
    | ok r =>
      simp only [hh] at h
      refine .inr ⟨r.1, r.2, rfl, rfl, ?_⟩
      simp [endProcess, respond_eq] at h
      exact h.symm

/-- The end of a PROCESS whose handler's write was refused (R343, R345), from a state that differs from s in the calls made. -/
theorem endProcess_refused {s u : State} {p : Byte} {made : List Call} (hr : i2cEvent s ≠ .ok) (hk : SameRegisters s u)
    (he : u.err = s.err) (hu : Untouched s u)
    (ht : u.env.trace = .i2cWrite s.cfg.i2cId s.cfg.i2cAddr p s.build.i2cMaxRetries (i2cEvent s) :: (made ++ s.env.trace)) :
    ∃ t, endProcess (mapTransport (i2cEvent s)) u = .next t ∧ WriteRefused p made s t := by
  obtain ⟨hc, hq, hd⟩ := hk
  unfold endProcess
  by_cases hb : i2cEvent s = .busy
  · rw [hb] at ht ⊢
    exact ⟨_, rfl, hc, hd, hu, by rw [hb]; exact ht, fun _ => ⟨⟨rfl, rfl, rfl⟩, rfl, hq⟩, fun h => absurd hb h, fun h => absurd hb h⟩
  · rw [account_mapTransport u hr hb, he]
    by_cases h9 : s.err.errCount = 9
    · rw [if_pos h9]
      exact ⟨_, rfl, hc, hd, hu, ht, fun h => absurd h hb, fun _ h => absurd h9 h, fun _ _ => ⟨⟨rfl, rfl, rfl⟩, rfl, by rw [← hq]; rfl⟩⟩
    · rw [if_neg h9]
      exact ⟨_, rfl, hc, hd, hu, ht, fun h => absurd h hb, fun _ _ => ⟨⟨rfl, rfl, rfl⟩, rfl, hq⟩, fun _ h => absurd h h9⟩

/-- The end of a PROCESS whose first call, to the timebase, failed (R343), from a state that differs from s in that call. -/
theorem endProcess_timebaseFailed {s u : State} {c : Call} (hk : SameRegisters s u) (he : u.err = s.err) (hu : Untouched s u)
    (ht : u.env.trace = c :: s.env.trace) :
    ∃ t, endProcess .timebaseFailure u = .next t ∧ TimebaseFailed c s t :=
  ⟨_, rfl, ⟨rfl, rfl, rfl⟩, by rw [← he]; rfl, hk, hu, ht⟩

end Sys2Proof.Machine
end

