-- ==== Sys2Proof/Laws/Operations.lean ====
section
/-!
SUPPORT. What INIT and the public operations can do: accepted, they load their command; otherwise they answer a status other than
OK and change nothing. And what every handler leaves alone.
-/

namespace Sys2Proof.Machine

variable {s t : State}

/-- `dev_state()` = READY, in the registers (R53). -/
theorem devState_ready : devState s = .ready ↔ s.seq.initialized = true ∧ s.seq.active = .idle := by
  unfold devState; cases s.seq.initialized <;> simp; split <;> simp_all

/-- `dev_state()` = PROCESSING, in the registers (R53). -/
theorem devState_processing :
    devState s = .processing ↔ s.seq.initialized = true ∧ s.seq.active ≠ .idle ∧ s.seq.active ≠ .init := by
  unfold devState; cases s.seq.initialized <;> simp; split <;> simp_all

/-- `dev_state()` = INITIALIZING, in the registers (R53). -/
theorem devState_initializing : devState s = .initializing ↔ s.seq.initialized = true ∧ s.seq.active = .init := by
  unfold devState; cases s.seq.initialized <;> simp; split <;> simp_all

/-- A refusal (R299): some status other than OK, and nothing else. -/
def Refuses (s t : State) : Prop := ∃ st, st ≠ .ok ∧ t = answered st 0 s

/-- An operation without an argument check (R280, R281). -/
theorem operation_next {toggle : Bool} {write : State → State} {a : Active} {p : CmdParams}
    (h : operation toggle write a p s = .next t) :
    (readyCheck toggle s = .ok ∧ t = answered .ok 0 (load a p (write s))) ∨ Refuses s t := by
  unfold operation at h
  split at h <;> cases h
  · exact .inl ⟨‹_›, rfl⟩
  · exact .inr ⟨_, ‹_›, rfl⟩

/-- MOVE_CURSOR_TO_COORD (R291). -/
theorem execMoveCursorToCoord_next {line column : Byte} (h : execMoveCursorToCoord line column s = .next t) :
    (readyCheck false s = .ok ∧ geometryOk line column s = true ∧
        t = answered .ok 0 (load .moveAbs { CmdParams.zero with line := line, column := column } s)) ∨ Refuses s t := by
  unfold execMoveCursorToCoord at h
  split at h
  · cases h; exact .inr ⟨_, by decide, rfl⟩
  · next hg =>
    rcases operation_next h with ⟨hr, ht⟩ | ht
    · exact .inl ⟨hr, by simpa [hr] using hg, ht⟩
    · exact .inr ht

/-- PRINT (R294). -/
theorem execPrint_next {buf : Word} {len : BitVec 16} (h : execPrint buf len s = .next t) :
    (readyCheck false s = .ok ∧ buf ≠ 0 ∧ len ≠ 0 ∧
        t = answered .ok 0 (load .print { CmdParams.zero with buf := buf, len := len } s)) ∨ Refuses s t := by
  unfold execPrint at h
  split at h
  · cases h; exact .inr ⟨_, by decide, rfl⟩
  · next hb =>
    split at h
    · cases h; exact .inr ⟨_, by decide, rfl⟩
    · next hl =>
      rcases operation_next h with ⟨hr, ht⟩ | ht
      · exact .inl ⟨hr, by simpa [hr] using hb, by simpa [hr] using hl, ht⟩
      · exact .inr ht

/-- INIT (R240). -/
theorem execInit_next {a : DisplayConfig} (h : execInit a s = .next t) :
    (s.seq.initialized = false ∧ configLegal a = true ∧ t = answered .ok 0 (startBootstrap a s)) ∨ Refuses s t := by
  unfold execInit at h
  split at h
  · cases h; exact .inr ⟨_, by decide, rfl⟩
  · next hi =>
    split at h <;> cases h
    · exact .inl ⟨by simpa using hi, ‹_›, rfl⟩
    · exact .inr ⟨_, by decide, rfl⟩

/-! ## What a step of a transfer and a handler leave alone -/

/-- The parts of the state that no handler writes: the build, memory, the inputs, the port and the error registers. -/
structure Kept (s u : State) : Prop where
  build : u.build = s.build
  mem : u.mem = s.mem
  inputs : u.inputs = s.inputs
  port : u.port = s.port
  err : u.err = s.err

theorem Kept.rfl' (s : State) : Kept s s := ⟨rfl, rfl, rfl, rfl, rfl⟩

theorem Kept.trans {u v : State} (h : Kept s u) (k : Kept u v) : Kept s v :=
  ⟨k.build.trans h.build, k.mem.trans h.mem, k.inputs.trans h.inputs, k.port.trans h.port, k.err.trans h.err⟩

theorem tickStep_kept (s : State) : Kept s (tickStep s).state := by
  rcases tickStep_cases s with ⟨k, -, h⟩ | ⟨-, h⟩ <;> rw [h] <;> exact ⟨rfl, rfl, rfl, rfl, rfl⟩

theorem raiseStep_kept (s : State) : Kept s (raiseStep s).state := by
  rcases raiseStep_cases s with ⟨-, h⟩ | ⟨-, -, h⟩ <;> rw [h]
  · exact Kept.trans (u := raised s) ⟨rfl, rfl, rfl, rfl, rfl⟩ (tickStep_kept _)
  · exact ⟨rfl, rfl, rfl, rfl, rfl⟩

theorem fallStep_kept (s : State) : Kept s (fallStep s).state := by
  rcases fallStep_cases s with ⟨-, h⟩ | ⟨e, -, ⟨-, h⟩ | ⟨-, -, h⟩ | ⟨-, -, -, h⟩⟩ <;> rw [h]
  · exact ⟨rfl, rfl, rfl, rfl, rfl⟩
  · exact ⟨rfl, rfl, rfl, rfl, rfl⟩
  · rcases afterFall_cases (written (afterTimebase (waitCall s) s) (pay false s)) with ⟨-, -, h⟩ | ⟨-, h⟩ <;> rw [h] <;>
      exact ⟨rfl, rfl, rfl, rfl, rfl⟩
  · exact ⟨rfl, rfl, rfl, rfl, rfl⟩

theorem settleStep_kept {r : Ran} (h : settleStep s = .ok r) : Kept s r.state := by
  rcases settleStep_cases s with ⟨-, h'⟩ | ⟨l, -, ⟨-, h'⟩ | ⟨e, -, ⟨-, h'⟩ | ⟨-, h'⟩⟩⟩ <;> rw [h'] at h <;> cases h
  · exact ⟨rfl, rfl, rfl, rfl, rfl⟩
  · exact ⟨rfl, rfl, rfl, rfl, rfl⟩
  · exact Kept.trans (u := afterTimebase (waitCall s) s) ⟨rfl, rfl, rfl, rfl, rfl⟩ (raiseStep_kept _)

theorem sendByteStep_kept {b : SubState} {r : Ran} (h : sendByteStep b s = .ok r) : Kept s r.state := by
  cases b <;> simp only [sendByteStep] at h
  case settle => exact settleStep_kept h
  all_goals cases h
  all_goals first | exact raiseStep_kept s | exact tickStep_kept s | exact fallStep_kept s

theorem drive_kept {f : State → Except Fault (Status × State)} {g : State → State} {st : Status} {u : State}
    (hf : ∀ st u, f s = .ok (st, u) → Kept s u) (hg : ∀ v, Kept v (g v)) (h : drive f g s = .ok (st, u)) : Kept s u := by
  rcases drive_cases s f g with ⟨-, h'⟩ | ⟨-, h'⟩ | ⟨b, -, -, ⟨e, -, h'⟩ | ⟨r, hr, h'⟩⟩ <;> rw [h'] at h
  · cases h
  · exact hf _ _ h
  · cases h
  · have hk := sendByteStep_kept hr
    split at h
    · cases h
      split
      · exact hk.trans (hg _)
      · exact hk
    · cases h; exact hk

theorem finish_kept (s : State) : Kept s (finish s) := ⟨rfl, rfl, rfl, rfl, rfl⟩

theorem finalize_kept (s : State) : Kept s (finalize s) := by
  unfold finalize; split <;> exact ⟨rfl, rfl, rfl, rfl, rfl⟩

theorem printNext_kept (s : State) : Kept s (printNext s) := by
  unfold printNext; dsimp only; split <;> exact ⟨rfl, rfl, rfl, rfl, rfl⟩

theorem runByte_kept {b : Byte} {st : Status} {u : State} (h : runByte b s = .ok (st, u)) : Kept s u :=
  drive_kept (fun _ _ h => by cases h; exact ⟨rfl, rfl, rfl, rfl, rfl⟩) finalize_kept h

theorem probeStep_kept {st : Status} {u : State} (h : probeStep s = .ok (st, u)) : Kept s u := by
  refine drive_kept (fun st u h => ?_) finalize_kept h
  rcases probeSetup_cases s probeByte with ⟨k, -, h'⟩ | ⟨-, h'⟩ <;> rw [h'] at h <;> cases h <;>
    exact ⟨rfl, rfl, rfl, rfl, rfl⟩

theorem forceDisplayOff_kept (s : State) : Kept s (forceDisplayOff s) := by
  unfold forceDisplayOff; split <;> exact ⟨rfl, rfl, rfl, rfl, rfl⟩

theorem bootstrapHandler_kept {st : Status} {u : State} (h : bootstrapHandler s = .ok (st, u)) : Kept s u := by
  rcases bootstrapHandler_cases s with ⟨-, h'⟩ | ⟨-, -, -, b, h'⟩ | ⟨-, h'⟩ | ⟨-, h'⟩ | ⟨-, h'⟩ <;> rw [h'] at h
  · exact probeStep_kept h
  · exact runByte_kept h
  · exact (forceDisplayOff_kept s).trans (runByte_kept h)
  · cases h; exact finish_kept s
  · cases h

theorem printHandler_kept {st : Status} {u : State} (h : printHandler s = .ok (st, u)) : Kept s u := by
  refine drive_kept (fun st u h => ?_) printNext_kept h
  unfold printSetup memRead at h
  cases hm : memGet s.mem (fetchAddr s).toNat <;> simp [hm] at h
  obtain ⟨-, rfl⟩ := h
  exact ⟨rfl, rfl, rfl, rfl, rfl⟩

theorem backlightHandler_kept (s : State) : Kept s (backlightHandler s).2 := by
  rcases backlightHandler_cases s with ⟨-, h⟩ | ⟨-, -, h⟩ <;> rw [h] <;> exact ⟨rfl, rfl, rfl, rfl, rfl⟩

/-- No handler writes the build, host memory, the inputs, the port or the error registers. -/
theorem handler_kept {st : Status} {u : State} (h : handler s = .ok (st, u)) : Kept s u := by
  rcases handler_cases s with ⟨b, -, h'⟩ | ⟨-, h'⟩ | ⟨-, h'⟩ | ⟨-, h'⟩ | ⟨k, -, h'⟩ | ⟨-, h'⟩ <;> rw [h'] at h
  · exact runByte_kept h
  · exact bootstrapHandler_kept h
  · exact printHandler_kept h
  · have hk := backlightHandler_kept s
    rw [Except.ok.inj h] at hk
    exact hk
  · cases h
  · cases h; exact Kept.rfl' s

end Sys2Proof.Machine
end

