-- ==== Sys2Proof/Laws/PerInstr.lean ====
section
/-!
SUPPORT. A statement made for each instruction: its encoding has the pattern of its row of spec/opcode_table.json.
-/

namespace Sys2Proof.Laws.TableRow

/-- The mask and the match of an instruction's row of the opcode table. -/
def row : Instr → Byte × Byte
  | .init _ => (0xFF, 0x01)
  | .reset => (0xFF, 0x02)
  | .process => (0xFF, 0x03)
  | .getState => (0xFF, 0x04)
  | .readDiag => (0xFF, 0x05)
  | .clear => (0xFF, 0x10)
  | .home => (0xFF, 0x11)
  | .setDisplayOnOff _ => (0xFF, 0x12)
  | .setCursorVisible _ => (0xFF, 0x13)
  | .setBlinkingCursor _ => (0xFF, 0x14)
  | .setBacklight _ => (0xFF, 0x15)
  | .setEntryMode _ => (0xFF, 0x16)
  | .moveCursorToCoord _ _ => (0xFF, 0x17)
  | .moveRelative _ => (0xFF, 0x18)
  | .shiftDisplay _ => (0xFF, 0x19)
  | .print _ _ => (0xFF, 0x1A)
  | .hdClear => (0xFF, 0x01)
  | .hdHome => (0xFF, 0x02)
  | .hdEntryModeSet _ _ => (0xFC, 0x04)
  | .hdDisplayControl _ _ _ => (0xF8, 0x08)
  | .hdCursorShift _ _ => (0xF3, 0x10)
  | .hdFunctionSet _ _ _ => (0xE3, 0x20)
  | .hdSetDdramAddr _ => (0x80, 0x80)
  | .hdData _ => (0x00, 0x00)
  | .payRaise _ _ _ => (0x06, 0x04)
  | .payFall _ _ _ => (0x06, 0x00)
  | .payBacklight _ => (0xF7, 0x00)
  | .payProbeRaise _ => (0xF7, 0x34)
  | .payProbeFall _ => (0xF7, 0x30)

/-- The encoded byte has the fixed bits of the row. -/
def Statement (i : Instr) : Prop := (encode i).tableByte &&& (row i).1 = (row i).2

theorem init (a : DisplayConfig) : Statement (.init a) := by
  simp [Statement, row, encode, Code.tableByte]
theorem reset : Statement .reset := rfl
theorem process : Statement .process := rfl
theorem getState : Statement .getState := rfl
theorem readDiag : Statement .readDiag := rfl
theorem clear : Statement .clear := rfl
theorem home : Statement .home := rfl
theorem setDisplayOnOff (b : Bool) : Statement (.setDisplayOnOff b) := by
  simp [Statement, row, encode, flagTxn, Code.tableByte]
theorem setCursorVisible (b : Bool) : Statement (.setCursorVisible b) := by
  simp [Statement, row, encode, flagTxn, Code.tableByte]
theorem setBlinkingCursor (b : Bool) : Statement (.setBlinkingCursor b) := by
  simp [Statement, row, encode, flagTxn, Code.tableByte]
theorem setBacklight (b : Bool) : Statement (.setBacklight b) := by
  simp [Statement, row, encode, flagTxn, Code.tableByte]
theorem setEntryMode (m : BitVec 2) : Statement (.setEntryMode m) := by
  simp [Statement, row, encode, Code.tableByte]
theorem moveCursorToCoord (l c : Byte) : Statement (.moveCursorToCoord l c) := by
  simp [Statement, row, encode, Code.tableByte]
theorem moveRelative (d : Direction) : Statement (.moveRelative d) := by
  simp [Statement, row, encode, flagTxn, Code.tableByte]
theorem shiftDisplay (d : Direction) : Statement (.shiftDisplay d) := by
  simp [Statement, row, encode, flagTxn, Code.tableByte]
theorem print (b : Word) (n : BitVec 16) : Statement (.print b n) := by
  simp [Statement, row, encode, Code.tableByte]
theorem hdClear : Statement .hdClear := rfl
theorem hdHome : Statement .hdHome := rfl
theorem hdEntryModeSet (id s : Bool) : Statement (.hdEntryModeSet id s) := by cases id <;> cases s <;> rfl
theorem hdDisplayControl (d c b : Bool) : Statement (.hdDisplayControl d c b) := by
  cases d <;> cases c <;> cases b <;> rfl
theorem hdCursorShift (sc rl : Bool) : Statement (.hdCursorShift sc rl) := by cases sc <;> cases rl <;> rfl
theorem hdFunctionSet (dl n f : Bool) : Statement (.hdFunctionSet dl n f) := by
  cases dl <;> cases n <;> cases f <;> rfl
theorem hdSetDdramAddr (a : BitVec 7) : Statement (.hdSetDdramAddr a) := by
  revert a; unfold Statement; decide
theorem hdData (d : Byte) : Statement (.hdData d) := by simp [Statement, row]
theorem payRaise (n : Nibble) (bl rs : Bool) : Statement (.payRaise n bl rs) := by
  revert n; unfold Statement; cases bl <;> cases rs <;> decide
theorem payFall (n : Nibble) (bl rs : Bool) : Statement (.payFall n bl rs) := by
  revert n; unfold Statement; cases bl <;> cases rs <;> decide
theorem payBacklight (bl : Bool) : Statement (.payBacklight bl) := by cases bl <;> rfl
theorem payProbeRaise (bl : Bool) : Statement (.payProbeRaise bl) := by cases bl <;> rfl
theorem payProbeFall (bl : Bool) : Statement (.payProbeFall bl) := by cases bl <;> rfl

end Sys2Proof.Laws.TableRow
end

