-- ==== Sys2Proof/Tests/Slice0.lean ====
section
/-!
SUPPORT. The model's own tests: the checks of WellFormed on an ill-formed term each, words written out from 30_encoding.md, single
steps from the vectors of 95_test_vectors.md, and for every statement with hypotheses a state that meets all of them.
-/

namespace Sys2Proof.Tests

open Sys2Proof Sys2Proof.Machine

/-! ## Small states -/

/-- A build with a microsecond timebase and preempting toggles. -/
def build : Build := ⟨.us, 32, 3, true, .little⟩

/-- The configuration of state S0 (95_test_vectors.md). -/
def cfg0 : DisplayConfig := ⟨0x27, true, false, 0b10, true, false, false, false, 0, 0⟩

/-- Power-on, of that build. -/
def power : State := .resetOf build

/-- State S0: Ready after the bootstrap. -/
def ready : State :=
  { power with cfg := cfg0, seq := { Seq.reset with initialized := true, curByte := 0x06, plBl := true }, diag := ⟨0x06, 0x68⟩ }

/-- S0 with a command active. -/
def active (a : Active) (sub : SubBits) (b : Byte) : State :=
  { ready with seq := { ready.seq with active := a, sub := sub, curByte := b } }

/-- A bootstrap stage of S0's configuration. -/
def boot (k : BitVec 4) (sub : SubBits) (b : Byte) (nibbleOnly : Bool) : State :=
  { ready with seq := { ready.seq with
    active := .init, nested := true, subStep := k, sub := sub, curByte := b, nibbleOnly := nibbleOnly } }

/-- PRINT of one character at 0x1000, as vector V-OP-20 has it. -/
def printing : State :=
  { ready with
    seq := { ready.seq with active := .print, par := { CmdParams.zero with buf := 0x1000, len := 1 } }
    mem := [(0x1000, 0x41)] }

/-- s with the next answers of the timebase and of the transport. -/
def answering (tb : List TimebaseEvent) (i2c : List I2cResult) (s : State) : State :=
  { s with env := { s.env with timebase := tb, i2c := i2c } }

/-- s with error registers. -/
def errors (e : Err) (s : State) : State := { s with err := e }

/-- s with one host transaction to come. -/
def given (cmd : Byte) (arg0 arg1 : Word) (s : State) : State := s.withInputs [.run (.host ⟨cmd, arg0, arg1⟩)]

/-- The state of an outcome that has one. -/
def after : Host.Outcome State Fault Refusal → Option State
  | .next t => some t
  | .fault _ => none
  | .refused _ => none

/-- The fault of an outcome. -/
def faultOf : Host.Outcome State Fault Refusal → Option Fault
  | .fault f => some f
  | .next _ => none
  | .refused _ => none

def settle : SubBits := ⟨false, false, false, true⟩
def hRaise : SubBits := ⟨false, false, false, false⟩
def hTick : SubBits := ⟨false, false, true, false⟩
def hWait : SubBits := ⟨false, false, true, true⟩
def lRaise : SubBits := ⟨false, true, false, false⟩
def lTick : SubBits := ⟨false, true, true, false⟩
def lWait : SubBits := ⟨false, true, true, true⟩

/-! ## WellFormed: each check with a term it refuses -/

theorem test_wf_function_set : wellFormed (.hdFunctionSet false true true) = false ∧
    wellFormed (.hdFunctionSet true true false) = false ∧ wellFormed (.hdFunctionSet true false false) = true := by decide

theorem test_wf_ddram : wellFormed (.hdSetDdramAddr 0x68) = false ∧ wellFormed (.hdSetDdramAddr 0x67) = true := by decide

theorem test_wf_build : buildLegal ⟨.us, 15, 3, true, .little⟩ = false ∧ buildLegal ⟨.us, 16, 3, true, .little⟩ = true ∧
    buildLegal ⟨.ms, 5, 3, true, .big⟩ = false ∧ buildLegal ⟨.ms, 6, 3, true, .big⟩ = true := by decide

/-! ## Decoding: the words of 30_encoding.md (R112, R113, R120 to R132), each constructor once -/

/-- INIT with ARG0 = 0x0CA7 (V-BOOT-5): addr 0x27, bit 7 two lines, bits 10..9 = 10, bit 11 backlight; ARG1 = ids. -/
theorem test_decode_init : decode (.host ⟨0x01, 0x0CA7, 0x00050003⟩) =
    some (.init ⟨0x27, true, false, 0b10, true, false, false, false, 3, 5⟩) := by decide

theorem test_decode_control : decode (.host ⟨0x02, 0, 0⟩) = some .reset ∧ decode (.host ⟨0x03, 0, 0⟩) = some .process ∧
    decode (.host ⟨0x04, 0, 0⟩) = some .getState ∧ decode (.host ⟨0x05, 0, 0⟩) = some .readDiag := by decide

theorem test_decode_plain_operations : decode (.host ⟨0x10, 0, 0⟩) = some .clear ∧ decode (.host ⟨0x11, 0, 0⟩) = some .home := by
  decide

theorem test_decode_flag_operations : decode (.host ⟨0x12, 1, 0⟩) = some (.setDisplayOnOff true) ∧
    decode (.host ⟨0x13, 1, 0⟩) = some (.setCursorVisible true) ∧
    decode (.host ⟨0x14, 0xFFFFFFFE, 0⟩) = some (.setBlinkingCursor false) ∧
    decode (.host ⟨0x15, 1, 0⟩) = some (.setBacklight true) ∧ decode (.host ⟨0x16, 3, 0⟩) = some (.setEntryMode 0b11) := by
  decide

theorem test_decode_moves : decode (.host ⟨0x17, 0x0501, 0⟩) = some (.moveCursorToCoord 1 5) ∧
    decode (.host ⟨0x18, 1, 0⟩) = some (.moveRelative .right) ∧ decode (.host ⟨0x19, 0, 0⟩) = some (.shiftDisplay .left) := by
  decide

/-- V-OP-24: ARG1[31:16] is ignored. -/
theorem test_decode_print : decode (.host ⟨0x1A, 0x1000, 0xFFFF0002⟩) = some (.print 0x1000 2) := by decide

theorem test_decode_bytes : decode (.hdInstruction 0b00000001) = some .hdClear ∧
    decode (.hdInstruction 0b00000010) = some .hdHome ∧
    decode (.hdInstruction 0b00000110) = some (.hdEntryModeSet true false) ∧
    decode (.hdInstruction 0b00001110) = some (.hdDisplayControl true true false) ∧
    decode (.hdInstruction 0b00011100) = some (.hdCursorShift true true) ∧
    decode (.hdInstruction 0b00101000) = some (.hdFunctionSet false true false) ∧
    decode (.hdInstruction 0b11000101) = some (.hdSetDdramAddr 0x45) ∧ decode (.hdDataByte 0x41) = some (.hdData 0x41) := by
  decide

/-- V-PAY-7, V-PAY-8, R123, and the probe payloads of V-BOOT-5. -/
theorem test_decode_payloads : decode (.nibblePayload 0x4D) = some (.payRaise 0x4 true true) ∧
    decode (.nibblePayload 0x49) = some (.payFall 0x4 true true) ∧ decode (.backlightPayload 0x08) = some (.payBacklight true) ∧
    decode (.probePayload 0x3C) = some (.payProbeRaise true) ∧ decode (.probePayload 0x38) = some (.payProbeFall true) := by
  decide

/-- The words refused by name: CURSOR_SHIFT with bits 1 to 0 non-zero, SET_CGRAM_ADDR, RW = 1 (R133). -/
theorem test_decode_refused : decode (.hdInstruction 0x11) = none ∧ decode (.hdInstruction 0x40) = none ∧
    decode (.nibblePayload 0x4F) = none ∧ decode (.backlightPayload 0x10) = none ∧ decode (.probePayload 0x24) = none := by
  decide

/-- Bare words of the opcode table that one format alone has. -/
theorem test_table_words : decodeTableWord 8 0x03 = some .process ∧ decodeTableWord 8 0xC5 = some (.hdSetDdramAddr 0x45) ∧
    decodeTableWord 8 0x28 = some (.hdFunctionSet false true false) ∧ decodeTableWord 8 0x34 = some (.payProbeRaise false) ∧
    decodeTableWord 8 0x4D = some (.payRaise 0x4 true true) ∧ decodeTableWord 8 0x00 = some (.payBacklight false) ∧
    decodeTableWord 8 0x6A = some (.hdData 0x6A) := by decide

/-! ## The step from reset -/

/-- V-SEQ-1: PROCESS as the first transaction. -/
theorem test_reset_process : after (step (State.reset.withFetchWord 8 0x03)) =
    some { State.reset with port := ⟨0, 0, .notInitialized, 0⟩ } := rfl

/-- V-BOOT-1: two lines with the 5x10 font. -/
theorem test_reset_init_illegal : after (step (given 0x01 0x180 0 State.reset)) =
    some { State.reset with port := ⟨0x180, 0, .invalidArgument, 0⟩ } := rfl

/-- V-BOOT-2: INIT of one line with the 5x10 font. -/
theorem test_init_accepted : (after (step (given 0x01 0x13F 0 power))).map
    (fun t => (devState t, t.err, t.cfg.i2cAddr, t.cfg.font5x10, t.env.trace)) =
      some (.initializing, ⟨.ok, 0⟩, 0x3F, true, []) := by decide

/-- V-SEQ-10: INIT when initialized. -/
theorem test_init_wrong_state : (after (exec (.init cfg0) ready)).map (fun t => (t.port.status, devState t)) =
    some (.wrongState, .ready) := by decide

/-- V-SEQ-6: unassigned codes. -/
theorem test_unassigned : (after (step (given 0x1B 1 2 ready))).map (fun t => (t.port, t.seq)) =
    some (⟨1, 2, .invalidArgument, 0⟩, ready.seq) := by decide

/-! ## RESET and the queries -/

/-- V-SEQ-9. -/
theorem test_reset_command : (after (exec .reset printing)).map (fun t => (t.port.status, t.seq, t.diag, t.mem)) =
    some (.ok, Seq.reset, ⟨0, 0⟩, [(0x1000, 0x41)]) := by decide

/-- GET_STATE in Ready: 2 (P2). -/
theorem test_get_state : (after (exec .getState ready)).map (fun t => t.port.data) = some 2 := by decide

/-- GET_STATE while Initializing: 1 (P5). -/
theorem test_get_state_init : (after (exec .getState (boot 0 .setup 0 false))).map (fun t => t.port.data) = some 1 := by decide

/-- V-SEQ-7. -/
theorem test_read_diag : (after (exec .readDiag ready)).map (fun t => t.port.data) = some 0x20006806 := by decide

/-- P2: READ_DIAG after the escalation. -/
theorem test_read_diag_error : (after (exec .readDiag (errors ⟨.maxConsecutiveErrors, 0⟩ ready))).map (fun t => t.port.data) =
    some 0x200B6806 := by decide

/-! ## The public operations -/

theorem test_clear : (after (exec .clear ready)).map (fun t => (t.port.status, t.seq.active, t.seq.sub)) =
    some (.ok, .clear, .setup) := by decide

theorem test_home : (after (exec .home ready)).map (fun t => (t.port.status, cmdByte t.seq.active t)) = some (.ok, some 0x02) := by
  decide

/-- V-OP-3. -/
theorem test_set_display_on_off : (after (exec (.setDisplayOnOff true) ready)).map
    (fun t => (t.port.status, cmdByte t.seq.active t)) = some (.ok, some 0x0C) := by decide

/-- V-OP-27: the byte 0x0A, the CLEAR in H_WAIT preempted. -/
theorem test_set_cursor_visible_preempts : (after (exec (.setCursorVisible true) (active .clear hWait 1))).map
    (fun t => (t.port.status, cmdByte t.seq.active t, t.seq.sub)) = some (.ok, some 0x0A, .setup) := by decide

/-- V-OP-28: without preemption. -/
theorem test_set_blinking_cursor_busy :
    (after (exec (.setBlinkingCursor true) { active .clear hWait 1 with build := ⟨.us, 32, 3, false, .little⟩ })).map
      (fun t => (t.port.status, t.cfg.cursorBlink)) = some (.deviceBusy, false) := by decide

/-- V-BOOT-6: no preemption while Initializing. -/
theorem test_toggle_while_initializing : (after (exec (.setDisplayOnOff true) (boot 0 .setup 0 false))).map
    (fun t => (t.port.status, t.cfg.displayEnabled)) = some (.deviceBusy, false) := by decide

/-- V-OP-26: SET_BACKLIGHT does not preempt. -/
theorem test_set_backlight_busy : (after (exec (.setBacklight false) (active .clear hWait 1))).map
    (fun t => (t.port.status, t.cfg.backlight)) = some (.deviceBusy, true) := by decide

/-- V-OP-7. -/
theorem test_set_entry_mode : (after (exec (.setEntryMode 0b11) ready)).map
    (fun t => (t.port.status, cmdByte t.seq.active t)) = some (.ok, some 0x07) := by decide

/-- V-OP-13. -/
theorem test_move_cursor : (after (exec (.moveCursorToCoord 1 39) ready)).map
    (fun t => (t.port.status, cmdByte t.seq.active t)) = some (.ok, some 0xE7) := by decide

/-- V-OP-15. -/
theorem test_move_cursor_outside : (after (exec (.moveCursorToCoord 0 40) ready)).map
    (fun t => (t.port.status, devState t)) = some (.invalidArgument, .ready) := by decide

/-- V-OP-8. -/
theorem test_move_relative : (after (exec (.moveRelative .left) ready)).map
    (fun t => (t.port.status, cmdByte t.seq.active t)) = some (.ok, some 0x10) := by decide

/-- V-OP-9. -/
theorem test_shift_display : (after (exec (.shiftDisplay .right) ready)).map
    (fun t => (t.port.status, cmdByte t.seq.active t)) = some (.ok, some 0x1C) := by decide

/-- V-OP-23: the null reference before the zero length. -/
theorem test_print_null : (after (exec (.print 0 0) ready)).map (fun t => (t.port.status, devState t)) =
    some (.nullReference, .ready) := by decide

/-- V-OP-20: accepted, and memory not read. -/
theorem test_print : (after (exec (.print 0x1000 1) ready)).map (fun t => (t.port.status, t.seq.active, t.seq.par.len)) =
    some (.ok, .print, 1) := by decide

/-! ## PROCESS: the vectors of sections 2.2, 2.4 and 2.6 -/

/-- V-BT-2. -/
theorem test_process_raise : (after (exec .process (answering [.runs 1000] [.ok] (active .clear hRaise 1)))).map
    (fun t => (t.port.status, t.seq.sub, t.seq.waitStart, t.diag.lastPayload)) = some (.ok, hWait, 1000, 0x0C) := by decide

/-- V-BT-5: the raise is written and its tick fails. -/
theorem test_process_raise_no_tick : (after (exec .process (answering [.fails] [.ok] (active .clear hRaise 1)))).map
    (fun t => (t.port.status, t.seq.sub, t.diag.lastPayload)) = some (.timebaseFailure, hTick, 0x0C) := by decide

/-- V-BT-7. -/
theorem test_process_wait : (after (exec .process (answering [.runs 36] [.ok] (active .clear hWait 1)))).map
    (fun t => (t.port.status, t.seq.sub, writeCount t)) = some (.ok, hWait, 0) := by decide

/-- V-BT-8. -/
theorem test_process_fall : (after (exec .process (answering [.runs 37] [.ok] (active .clear hWait 1)))).map
    (fun t => (t.port.status, t.seq.sub, t.diag.lastPayload)) = some (.ok, lRaise, 0x08) := by decide

/-- V-BT-12. -/
theorem test_process_complete : (after (exec .process (answering [.runs 37] [.ok] (active .clear lWait 1)))).map
    (fun t => (t.port.status, devState t, t.diag)) = some (.ok, .ready, ⟨0x01, 0x18⟩) := by decide

/-- V-BT-3, V-ERR-2: busy clears the counter. -/
theorem test_process_busy : (after (exec .process (errors ⟨.ok, 5⟩ (answering [] [.busy] (active .clear hRaise 1))))).map
    (fun t => (t.port.status, t.seq.sub, t.err)) = some (.i2cBusy, hRaise, ⟨.i2cBusy, 0⟩) := by decide

/-- V-ERR-4: the tenth error escalates. -/
theorem test_process_escalates :
    (after (exec .process (errors ⟨.i2cNotResponding, 9⟩ (answering [] [.malformed] (active .clear hRaise 1))))).map
      (fun t => (t.port.status, devState t, t.err)) = some (.maxConsecutiveErrors, .ready, ⟨.maxConsecutiveErrors, 0⟩) := by decide

/-- V-BOOT-4b: the settle time of the first probe is over. -/
theorem test_process_settle : (after (exec .process (answering [.runs 40000, .runs 7] [.ok] (boot 0 settle 0x30 true)))).map
    (fun t => (t.port.status, t.seq.sub, t.diag.lastPayload)) = some (.ok, hWait, 0x3C) := by decide

/-- V-BOOT-4a. -/
theorem test_process_settling : (after (exec .process (answering [.runs 39999] [.ok] (boot 0 settle 0x30 true)))).map
    (fun t => (t.port.status, t.seq.sub, writeCount t)) = some (.ok, settle, 0) := by decide

/-- V-BOOT-5, PROCESS 20: step 5 takes up 0x08 and clears the display flag. -/
theorem test_process_display_off :
    (after (exec .process { boot 5 .setup 0 false with cfg := { cfg0 with displayEnabled := true } })).map
      (fun t => (t.seq.curByte, t.cfg.displayEnabled, t.seq.sub)) = some (0x08, false, hRaise) := by decide

/-- V-OP-6. -/
theorem test_process_backlight :
    (after (exec .process (answering [] [.ok] { active .backlight .setup 6 with cfg := { cfg0 with backlight := false } }))).map
      (fun t => (t.port.status, devState t, t.diag)) = some (.ok, .ready, ⟨0x06, 0x00⟩) := by decide

/-- V-OP-20: the character is read by its setup entry. -/
theorem test_process_fetch : (after (exec .process printing)).map
    (fun t => (t.port.status, t.seq.curByte, t.seq.plRs, t.env.trace)) = some (.ok, 0x41, true, [.memRead 0x1000 0x41]) := by decide

/-! ## The output forms as operations -/

theorem test_hd_clear : (after (exec .hdClear ready)).map (fun t => (t.seq.curByte, t.seq.sub)) = some (0x01, hRaise) := by decide

theorem test_hd_home : (after (exec .hdHome ready)).map (fun t => (t.seq.curByte, t.seq.curRs)) = some (0x02, false) := by decide

theorem test_hd_entry_mode_set : (after (exec (.hdEntryModeSet true false) ready)).map (fun t => t.seq.curByte) = some 0x06 := by
  decide

theorem test_hd_display_control : (after (exec (.hdDisplayControl true false true) ready)).map (fun t => t.seq.curByte) =
    some 0x0D := by decide

theorem test_hd_cursor_shift : (after (exec (.hdCursorShift true false) ready)).map (fun t => t.seq.curByte) = some 0x18 := by decide

theorem test_hd_function_set : (after (exec (.hdFunctionSet false false true) ready)).map (fun t => t.seq.curByte) = some 0x24 := by
  decide

/-- The probe byte waits in SETTLE (R245). -/
theorem test_hd_function_set_probe :
    (after (exec (.hdFunctionSet true false false) (answering [.runs 5] [] ready))).map
      (fun t => (t.seq.curByte, t.seq.nibbleOnly, t.seq.sub, t.seq.waitStart)) = some (0x30, true, settle, 5) := by decide

theorem test_hd_set_ddram_addr : (after (exec (.hdSetDdramAddr 0x45) ready)).map (fun t => t.seq.curByte) = some 0xC5 := by decide

theorem test_hd_data : (after (exec (.hdData 0x41) ready)).map (fun t => (t.seq.curByte, t.seq.plRs)) = some (0x41, true) := by decide

/-- V-PAY-7. -/
theorem test_pay_raise : (after (exec (.payRaise 0x4 true true) (answering [] [.ok] ready))).map output = some [0x4D] := by decide

/-- V-PAY-8, refused: R342 gives 6 for an invalid address. -/
theorem test_pay_fall_refused : (after (exec (.payFall 0x4 true true) (answering [] [.invalidAddress] ready))).map
    (fun t => (t.port.status.code, t.diag, output t)) = some (6, ⟨0x06, 0x68⟩, []) := by decide

theorem test_pay_backlight : (after (exec (.payBacklight true) (answering [] [.ok] ready))).map output = some [0x08] := by decide

theorem test_pay_probe_raise : (after (exec (.payProbeRaise false) (answering [] [.ok] ready))).map output = some [0x34] := by decide

theorem test_pay_probe_fall : (after (exec (.payProbeFall false) (answering [] [.ok] ready))).map output = some [0x30] := by decide

/-- R134: two probes' single pairs, the byte 0x20 and a backlight payload between its pairs (V-BOOT-7). -/
theorem test_reconstruct : reconstruct [.probePayload 0x34, .probePayload 0x30, .probePayload 0x34, .probePayload 0x30,
    .nibblePayload 0x24, .nibblePayload 0x20, .backlightPayload 0x08, .nibblePayload 0x04, .nibblePayload 0x00] =
    [.probe 0x3, .probe 0x3, .byte 0x20] := by decide

/-- V-OP-27: the abandoned raise makes no pair; P4: a lone high nibble puts the stream one nibble out of step. -/
theorem test_reconstruct_preempted : reconstruct ([0x0C, 0x0C, 0x08, 0xAC, 0xA8].map .nibblePayload) = [.byte 0x0A] ∧
    reconstruct ([0x4D, 0x49, 0x0C, 0x08, 0xCC, 0xC8].map .nibblePayload) = [.byte 0x40] := by decide

/-- The payload of the first probe's raise comes with its place. -/
theorem test_run_output : runOutput [.process] (answering [.runs 40000, .runs 7] [.ok] (boot 0 settle 0x30 true)) =
    [.probePayload 0x3C] := by decide

/-- A byte on a byte-addressed port, in both orders (R88, R111). -/
theorem test_port_byte : portByte 0x20006806 0 ready = 0x06 ∧
    portByte 0x20006806 0 { ready with build := ⟨.us, 32, 3, true, .big⟩ } = 0x20 := by decide

/-- A byte the platform does not admit (R81). -/
theorem test_not_admitted : faultOf (exec .process (printing.withMem [])) = some .hostReadNotAdmitted := by decide

/-! ## Witnesses: a state or word that meets the hypotheses of each statement -/

theorem witness_encode_of_decoded : decode (.host ⟨0x1A, 0x1000, 0xFFFF0002⟩) = some (.print 0x1000 2) ∧
    (∀ t, Code.hdInstruction 0xC5 ≠ .host t) ∧ decode (.hdInstruction 0xC5) = some (.hdSetDdramAddr 0x45) :=
  ⟨by decide, nofun, by decide⟩

theorem witness_unassigned_argument_bits :
    (0x1000 : Word) &&& argMask0 0x1A = 0x1000 &&& argMask0 0x1A ∧ (0xFFFF0002 : Word) &&& argMask1 0x1A = 2 &&& argMask1 0x1A := by
  decide

theorem witness_unassigned_commands : decode (.host ⟨0x00, 1, 2⟩) = none ∧ decode (.host ⟨0x06, 1, 2⟩) = none ∧
    decode (.host ⟨0x0F, 1, 2⟩) = none ∧ decode (.host ⟨0x1B, 1, 2⟩) = none ∧ decode (.host ⟨0xFF, 1, 2⟩) = none ∧
    (decode (.host ⟨0x05, 1, 2⟩)).isSome = true ∧ (decode (.host ⟨0x10, 1, 2⟩)).isSome = true ∧
    (decode (.host ⟨0x1A, 1, 2⟩)).isSome = true := by decide

theorem witness_forbidden_encodings : (0x40 ≤ (0x7F : Byte).toNat ∧ (0x7F : Byte).toNat ≤ 0x7F) ∧
    (0x10 ≤ (0x3F : Byte).toNat ∧ (0x3F : Byte).toNat ≤ 0x3F ∧ (0x3F : Byte) &&& 0x03 ≠ 0) ∧ (0x02 : Byte).getLsbD 1 = true := by decide

theorem witness_step_runs : (given 0x03 0 0 ready).inputs = .run (.host ⟨0x03, 0, 0⟩) :: [] ∧
    decode (.host ⟨0x03, 0, 0⟩) = some .process ∧ (∀ t, Code.hdDataByte 0x41 ≠ .host t) ∧ ready.inputs = [] :=
  ⟨rfl, rfl, nofun, rfl⟩

theorem witness_unassigned_command_changes_nothing : (given 0x0F 1 2 ready).inputs = .run (.host ⟨0x0F, 1, 2⟩) :: [] ∧
    0x06 ≤ (0x0F : Byte).toNat ∧ (0x0F : Byte).toNat ≤ 0x0F ∧
    (given 0x00 1 2 power).inputs = .run (.host ⟨0x00, 1, 2⟩) :: [] ∧ (0x00 : Byte).toNat = 0 ∧
    (given 0x1B 1 2 ready).inputs = .run (.host ⟨0x1B, 1, 2⟩) :: [] ∧ 0x1B ≤ (0x1B : Byte).toNat := by decide

theorem witness_port_writes : (ready.withInputs [.writeArg0 1, .writeArg1 2, .writeCmd 0x12]).inputs =
    .writeArg0 1 :: .writeArg1 2 :: .writeCmd 0x12 :: [] := rfl

theorem witness_host_write : (printing.withInputs [.writeMem 0x1001 0x69]).inputs = .writeMem 0x1001 0x69 :: [] ∧
    (0x1000 : Nat) ≠ (0x1001 : Word).toNat := by decide

theorem witness_build_is_fixed : ∃ t, step (given 0x03 0 0 ready) = .next t := ⟨_, rfl⟩

/-- A PROCESS step that fetches a character, and one that writes a payload. -/
theorem witness_exec_next : (∃ t, exec .process printing = .next t) ∧
    ∃ t, exec (.payRaise 0x4 true true) (answering [] [.ok] ready) = .next t := ⟨⟨_, rfl⟩, ⟨_, rfl⟩⟩

theorem witness_memory_seen_by_fetch : printing.seq.active = .print ∧ printing.seq.sub = .setup ∧
    memGet [(0x1000, 0x41), (0x1001, 0x69)] (fetchAddr printing).toNat = memGet printing.mem (fetchAddr printing).toNat := by decide

theorem witness_not_initialized : power.seq.initialized = false ∧ isOperation .clear = true ∧
    (given 0x07 0 0 power).seq.initialized = false ∧ (given 0x07 0 0 power).inputs = .run (.host ⟨0x07, 0, 0⟩) :: [] ∧
    decode (.host ⟨0x07, 0, 0⟩) = none := by decide

/-- The three cases of INIT. -/
theorem witness_init : ready.seq.initialized = true ∧ power.seq.initialized = false ∧ configLegal cfg0 = true ∧
    configLegal { cfg0 with font5x10 := true } = false := by decide

theorem witness_busy : devState (active .clear hWait 1) = .processing ∧ isOperation .home = true ∧ isToggle .home = false ∧
    ({ active .clear hWait 1 with build := ⟨.us, 32, 3, false, .little⟩ } : State).build.preemptToggles = false := by decide

theorem witness_bootstrap_refuses : devState (boot 0 .setup 0 false) = .initializing ∧ isOperation (.setDisplayOnOff true) = true := by
  decide

theorem witness_ready : devState ready = .ready := by decide

theorem witness_toggles : devState (active .clear hWait 1) = .processing ∧ (active .clear hWait 1).build.preemptToggles = true := by
  decide

/-- The edges of both geometries. -/
theorem witness_geometry : geometryOk 1 39 ready = true ∧ geometryOk 2 0 ready = false ∧ geometryOk 0 40 ready = false ∧
    geometryOk 0 79 { ready with cfg := { cfg0 with twoLines := false } } = true ∧
    geometryOk 0 80 { ready with cfg := { cfg0 with twoLines := false } } = false ∧
    geometryOk 1 0 { ready with cfg := { cfg0 with twoLines := false } } = false := by decide

theorem witness_operations_frame : (∃ t, exec (.moveCursorToCoord 1 5) ready = .next t) ∧
    ∃ t, exec (.init cfg0) power = .next t := ⟨⟨_, rfl⟩, ⟨_, rfl⟩⟩

/-- Bootstrap step 5 at its setup entry, where PROCESS clears the display flag. -/
theorem witness_register_writers :
    ∃ t, exec .process { boot 5 .setup 0 false with cfg := { cfg0 with displayEnabled := true } } = .next t ∧
      t.cfg.displayEnabled = false := ⟨_, rfl, rfl⟩

theorem witness_initialized_writers : (∃ t, exec (.init cfg0) power = .next t ∧ t.port.status = .ok) ∧
    (∃ t, exec .reset ready = .next t) ∧ ∃ t, exec (.init cfg0) ready = .next t ∧ t.port.status = .wrongState :=
  ⟨⟨_, rfl, rfl⟩, ⟨_, rfl⟩, ⟨_, rfl, rfl⟩⟩

/-- The four cases of the accounting. -/
theorem witness_accounts : (∃ u, handler (answering [] [.busy] (active .clear hRaise 1)) = .ok (.i2cBusy, u)) ∧
    (∃ u, handler (answering [.fails] [] (active .clear hTick 1)) = .ok (.timebaseFailure, u)) ∧
    (∃ u, handler (errors ⟨.ok, 8⟩ (answering [] [.malformed] (active .clear hRaise 1))) = .ok (.i2cMalformedRequest, u) ∧
      u.err.errCount.toNat < 9) ∧
    ∃ u, handler (errors ⟨.ok, 9⟩ (answering [] [.other 42] (active .clear hRaise 1))) = .ok (.i2cNotResponding, u) ∧
      u.err.errCount = 9 :=
  ⟨⟨_, rfl⟩, ⟨_, rfl⟩, ⟨_, rfl, by decide⟩, ⟨_, rfl, rfl⟩⟩

theorem witness_escalation :
    ∃ t, exec .process (errors ⟨.ok, 9⟩ (answering [] [.malformed] (active .clear hRaise 1))) = .next t ∧
      t.port.status = .maxConsecutiveErrors := ⟨_, rfl, rfl⟩

theorem witness_faults : (active (.unassigned 4) .setup 0).seq.active = .unassigned 4 ∧
    (boot 9 .setup 0 false).seq.active = .init ∧ 9 ≤ (boot 9 .setup 0 false).seq.subStep.toNat ∧
    Transfers (active .clear ⟨true, true, true, true⟩ 1) ∧ subState (active .clear ⟨true, true, true, true⟩ 1).seq.sub = none ∧
    (printing.withMem []).seq.active = .print ∧ (printing.withMem []).seq.sub = .setup ∧
    memGet (printing.withMem []).mem (fetchAddr (printing.withMem [])).toNat = none :=
  ⟨rfl, rfl, by decide, .inl rfl, rfl, rfl, rfl, rfl⟩

theorem witness_one_write : (∃ t, exec .process (answering [.runs 1000] [.ok] (active .clear hTick 1)) = .next t) ∧
    Transfers (active .clear hTick 1) ∧ subState hTick = some .hTick ∧ subState lTick = some .lTick := ⟨⟨_, rfl⟩, .inl rfl, rfl, rfl⟩

/-- A transport error, a tick that fails after its raise, and one that fails on its own. -/
theorem witness_failures :
    (∃ t, exec .process (answering [] [.invalidAddress] (active .clear lRaise 1)) = .next t ∧ t.port.status.isTransport = true) ∧
    (∃ t, exec .process (answering [.fails] [.ok] (active .clear lRaise 1)) = .next t ∧ t.port.status = .timebaseFailure) ∧
    ∃ t, exec .process (answering [.fails] [.ok] (active .clear lWait 1)) = .next t ∧ t.port.status = .timebaseFailure :=
  ⟨⟨_, rfl, rfl⟩, ⟨_, rfl, rfl⟩, ⟨_, rfl, rfl⟩⟩

theorem witness_setup_entry : (active .clear .setup 0).seq.initialized = true ∧
    cmdByte (active .clear .setup 0).seq.active (active .clear .setup 0) = some 0x01 ∧ (active .clear .setup 0).seq.sub = .setup := by
  decide

/-- The raise accepted with its tick, accepted without it, and refused at both sides of the ceiling. -/
theorem witness_raises : (active .clear lRaise 1).seq.initialized = true ∧ Transfers (active .clear lRaise 1) ∧
    subState (active .clear lRaise 1).seq.sub = some .lRaise ∧
    i2cEvent (answering [.runs 1000] [.ok] (active .clear lRaise 1)) = .ok ∧
    tickAnswer (answering [.runs 1000] [.ok] (active .clear lRaise 1)) = .ok 1000 ∧
    tickAnswer (answering [.fails] [.ok] (active .clear lRaise 1)) = .fail ∧
    (∀ n, i2cEvent (errors ⟨.ok, n⟩ (answering [] [.malformed] (active .clear lRaise 1))) ≠ .ok) ∧
    i2cEvent (errors ⟨.ok, 9⟩ (answering [] [.busy] (active .clear lRaise 1))) = .busy :=
  ⟨rfl, .inl rfl, rfl, rfl, rfl, rfl, nofun, rfl⟩

theorem witness_ticks : (active .home hTick 2).seq.initialized = true ∧ Transfers (active .home hTick 2) ∧
    subState (active .home hTick 2).seq.sub = some .hTick := ⟨rfl, .inl rfl, rfl⟩

theorem witness_waits : Transfers (active .clear hWait 1) ∧ subState (active .clear hWait 1).seq.sub = some .hWait ∧
    elapsedAnswer 0 (answering [.runs 36] [] (active .clear hWait 1)) = .ok 36 ∧
    elapsedAnswer 0 (answering [.runs 0] [] { active .clear hWait 1 with build := ⟨.ms, 6, 3, true, .big⟩ }) = .ok 0 :=
  ⟨.inl rfl, rfl, rfl, rfl⟩

theorem witness_falls_high : Transfers printing ∧ subState hWait = some .hWait ∧ (active .clear hWait 1).seq.nibbleOnly = false ∧
    elapsedAnswer 0 (answering [.runs 37] [.ok] (active .clear hWait 1)) = .ok 37 ∧
    i2cEvent (answering [.runs 37] [.ok] (active .clear hWait 1)) = .ok ∧
    i2cEvent (answering [.runs 37] [.malformed] (active .clear hWait 1)) ≠ .ok ∧
    elapsedAnswer 0 (answering [.fails] [.ok] (active .clear hWait 1)) = .fail := ⟨.inr (.inl rfl), rfl, rfl, rfl, rfl, nofun, rfl⟩

/-- A byte's low nibble, a probe, and the last character of a PRINT. -/
theorem witness_completes : subState (active .clear lWait 1).seq.sub = some .lWait ∧
    Transfers (boot 2 hWait 0x30 true) ∧ subState (boot 2 hWait 0x30 true).seq.sub = some .hWait ∧
    (boot 2 hWait 0x30 true).seq.nibbleOnly = true ∧ printing.seq.par.index + 1 = printing.seq.par.len ∧
    elapsedAnswer 0 (answering [.runs 37] [.ok] (active .clear lWait 1)) = .ok 37 ∧
    i2cEvent (answering [.runs 37] [.ok] (active .clear lWait 1)) = .ok ∧
    i2cEvent (answering [.runs 37] [.busy] (active .clear lWait 1)) ≠ .ok ∧
    elapsedAnswer 0 (answering [.fails] [.ok] (active .clear lWait 1)) = .fail :=
  ⟨rfl, .inr (.inr ⟨rfl, by decide⟩), rfl, rfl, rfl, rfl, rfl, nofun, rfl⟩

theorem witness_pulse_width :
    ∃ t, exec .process (answering [.runs 37] [.ok] (active .clear hWait 1)) = .next t ∧ Transfers (active .clear hWait 1) ∧
      output t ≠ output (answering [.runs 37] [.ok] (active .clear hWait 1)) := ⟨_, rfl, .inl rfl, by decide⟩

/-- Two calls, the second across the wrap of a 6-bit tick. -/
theorem witness_monotone :
    ∃ u v, elapsed 60 (answering [.runs 2, .runs 7] []
        { power with build := ⟨.ms, 6, 3, true, .big⟩, env := { power.env with now := 60 } }) = (.ok 2, u) ∧
      elapsed 60 u = (.ok 9, v) ∧ v.env.now < 60 + 2 ^ 6 := ⟨_, _, rfl, rfl, by decide⟩

theorem witness_backlight : (active .backlight .setup 6).seq.initialized = true ∧
    (active .backlight .setup 6).seq.active = .backlight ∧ i2cEvent (answering [] [.ok] (active .backlight .setup 6)) = .ok ∧
    i2cEvent (errors ⟨.ok, 9⟩ (answering [] [.busy] (active .backlight .setup 6))) = .busy ∧
    i2cEvent (errors ⟨.ok, 9⟩ (answering [] [.other 42] (active .backlight .setup 6))) ≠ .busy := by decide

/-- The fetch address wraps at the top of the address space (R90). -/
theorem witness_fetch : printing.seq.initialized = true ∧ printing.seq.active = .print ∧ printing.seq.sub = .setup ∧
    memGet printing.mem ((printing.seq.par.buf.toNat + printing.seq.par.index.toNat) % 2 ^ 32) = some 0x41 ∧
    (0xFFFFFFFF + 1) % 2 ^ 32 = 0 := by decide

theorem witness_probe_setup : (boot 2 .setup 0 false).seq.initialized = true ∧ (boot 2 .setup 0 false).seq.active = .init ∧
    (boot 2 .setup 0 false).seq.subStep.toNat ≤ 2 ∧ (boot 2 .setup 0 false).seq.sub = .setup ∧
    tickAnswer (answering [.runs 5] [] (boot 2 .setup 0 false)) = .ok 5 ∧
    tickAnswer (answering [.fails] [] (boot 2 .setup 0 false)) = .fail := by decide

/-- Both sides of the settle time of the second probe; its tick read and failed; its raise refused; Elapsed failed. -/
theorem witness_settles : subState (boot 1 settle 0x30 true).seq.sub = some .settle ∧
    (boot 1 settle 0x30 true).seq.subStep.toNat ≤ 2 ∧
    elapsedAnswer 0 (answering [.runs 4999] [] (boot 1 settle 0x30 true)) = .ok 4999 ∧
    elapsedAnswer 0 (answering [.runs 5000] [.ok] (boot 1 settle 0x30 true)) = .ok 5000 ∧
    i2cEvent (answering [.runs 5000] [.ok] (boot 1 settle 0x30 true)) = .ok ∧
    tickAnswer (elapsed 0 (answering [.runs 5000, .runs 9] [.ok] (boot 1 settle 0x30 true))).2 = .ok 5009 ∧
    tickAnswer (elapsed 0 (answering [.runs 5000, .fails] [.ok] (boot 1 settle 0x30 true))).2 = .fail ∧
    i2cEvent (answering [.runs 5000] [.notResponding] (boot 1 settle 0x30 true)) ≠ .ok ∧
    elapsedAnswer 0 (answering [.fails] [] (boot 1 settle 0x30 true)) = .fail := by decide

theorem witness_bootstrap_bytes : 3 ≤ (boot 3 .setup 0 false).seq.subStep.toNat ∧ (boot 7 .setup 0 false).seq.subStep.toNat ≤ 7 ∧
    (boot 7 .setup 0 false).seq.active = .init ∧ (boot 7 .setup 0 false).seq.sub = .setup ∧
    (boot 7 .setup 0 false).seq.initialized = true := by decide

theorem witness_bootstrap_ends : (boot 8 .setup 0x06 false).seq.initialized = true ∧ (boot 8 .setup 0x06 false).seq.active = .init ∧
    (boot 8 .setup 0x06 false).seq.subStep = 8 := by decide

theorem witness_forms : formByte (.hdSetDdramAddr 0x45) = some (0xC5, false) ∧ formByte (.hdData 0x41) = some (0x41, true) ∧
    (∀ n f, Instr.hdData 0x41 ≠ .hdFunctionSet true n f) ∧ formByte (.hdFunctionSet false true false) = some (0x28, false) ∧
    formPayload (.payRaise 0x4 true true) = some 0x4D ∧ formPayload (.payBacklight true) = some 0x08 ∧
    formPayload (.payProbeFall false) = some 0x30 := ⟨rfl, rfl, nofun, rfl, rfl, rfl, rfl⟩

theorem witness_five_processes : (active .clear .setup 6).seq.initialized = true ∧ (active .clear .setup 6).seq.nested = false ∧
    cmdByte (active .clear .setup 6).seq.active (active .clear .setup 6) = some 0x01 ∧ (active .clear .setup 6).seq.sub = .setup ∧
    AnswersAtOnce 4 4 (answering (List.replicate 4 (.runs 40000)) (List.replicate 4 .ok) (active .clear .setup 6)) ∧
    (active .backlight .setup 6).seq.initialized = true ∧ (active .backlight .setup 6).seq.active = .backlight ∧
    i2cEvent (answering [] [.ok] (active .backlight .setup 6)) = .ok :=
  ⟨rfl, rfl, by decide, rfl, ⟨⟨[], rfl⟩, List.replicate 4 40000, [], rfl, rfl, by decide⟩, rfl, rfl, rfl⟩

theorem witness_twenty_six : (boot 0 .setup 0 false).seq.nested = true ∧ (boot 0 .setup 0 false).seq.subStep = 0 ∧
    (boot 0 .setup 0 false).seq.active = .init ∧ (boot 0 .setup 0 false).seq.initialized = true ∧
    (boot 0 .setup 0 false).seq.sub = .setup ∧
    AnswersAtOnce 26 32 (answering (List.replicate 32 (.runs 40000)) (List.replicate 26 .ok) (boot 0 .setup 0 false)) :=
  ⟨rfl, rfl, rfl, rfl, rfl, ⟨[], rfl⟩, List.replicate 32 40000, [], rfl, rfl, by decide⟩

theorem witness_print : printing.seq.initialized = true ∧ printing.seq.active = .print ∧ printing.seq.sub = .setup ∧
    printing.seq.par.len.toNat = printing.seq.par.index.toNat + [(0x41 : Byte)].length ∧
    (∀ j (h : j < [(0x41 : Byte)].length),
      memGet printing.mem ((printing.seq.par.buf.toNat + (printing.seq.par.index.toNat + j)) % 2 ^ 32) = some [(0x41 : Byte)][j]) ∧
    AnswersAtOnce 4 4 (answering (List.replicate 4 (.runs 40000)) (List.replicate 4 .ok) printing) := by
  refine ⟨rfl, rfl, rfl, rfl, fun j h => ?_, ⟨[], rfl⟩, List.replicate 4 40000, [], rfl, rfl, by decide⟩
  obtain rfl : j = 0 := by simpa using h
  rfl

/-- The invariants hold of a state in the middle of a PRINT, with a transaction to come; and it steps. -/
theorem witness_inv : Inv (given 0x03 0 0 printing) ∧ ∃ t, step (given 0x03 0 0 printing) = .next t := by
  refine ⟨⟨nofun, by decide, by decide, nofun, nofun, nofun, by decide, by decide, by decide, nofun, by decide, by decide, by decide,
    nofun, by decide, by decide⟩, _, rfl⟩

end Sys2Proof.Tests
end

/-!
PROOFS. The scope of a transaction (00_scope.md): what no instruction writes, and that no step changes the build.
-/

namespace Sys2Proof.Machine

variable {s t u : State}

/-! ## What the shared operations leave untouched -/

theorem Untouched.refl (s : State) : Untouched s s := ⟨rfl, rfl, rfl, rfl, rfl⟩

theorem Untouched.trans (h : Untouched s t) (k : Untouched t u) : Untouched s u := by
  obtain ⟨hb, hm, hi, h0, h1⟩ := h
  obtain ⟨kb, km, ki, k0, k1⟩ := k
  exact ⟨kb.trans hb, km.trans hm, ki.trans hi, k0.trans h0, k1.trans h1⟩

/-- What a handler keeps covers what no instruction writes. -/
theorem Kept.untouched (h : Kept s t) : Untouched s t :=
  ⟨h.build, h.mem, h.inputs, congrArg Port.arg0 h.port, congrArg Port.arg1 h.port⟩

theorem answered_untouched (st : Status) (d : Word) (h : Untouched s t) : Untouched s (answered st d t) := h

theorem Refuses.untouched (h : Refuses s t) : Untouched s t := by
  obtain ⟨st, -, rfl⟩ := h
  exact answered_untouched st 0 (.refl s)

theorem writePayload_untouched (p : Byte) (s : State) : Untouched s (writePayload p s).2 := by
  obtain ⟨-, h⟩ | ⟨-, h, -⟩ := writePayload_cases s p <;> rw [h] <;> exact ⟨rfl, rfl, rfl, rfl, rfl⟩

theorem probeSetup_untouched (b : Byte) (s : State) : Untouched s (probeSetup b s).2 := by
  obtain ⟨k, -, h⟩ | ⟨-, h⟩ := probeSetup_cases s b <;> rw [h] <;> exact ⟨rfl, rfl, rfl, rfl, rfl⟩

theorem account_untouched (st : Status) (s : State) : Untouched s (account st s).2 := by
  obtain ⟨-, h⟩ | ⟨-, -, h⟩ | ⟨-, -, h⟩ | h := account_cases s st <;> rw [h] <;> exact ⟨rfl, rfl, rfl, rfl, rfl⟩

/-! ## What the instructions leave untouched, by their kinds -/

/-- An answer at the end of a transaction adds the port's outputs alone (R110). -/
theorem answer_untouched {st : Status} {d : Word} (hu : Untouched s u) (h : answer st d u = .next t) :
    Untouched s t := by
  cases h
  exact answered_untouched st d hu

theorem operation_untouched {toggle : Bool} {write : State → State} {a : Active} {p : CmdParams}
    (h : operation toggle write a p s = .next t) (hw : Untouched s (write s)) : Untouched s t := by
  obtain ⟨-, rfl⟩ | hr := operation_next h
  · exact hw
  · exact hr.untouched

theorem execInit_untouched {a : DisplayConfig} (h : execInit a s = .next t) : Untouched s t := by
  obtain ⟨-, -, rfl⟩ | hr := execInit_next h
  · exact ⟨rfl, rfl, rfl, rfl, rfl⟩
  · exact hr.untouched

theorem execMoveCursorToCoord_untouched {line column : Byte} (h : execMoveCursorToCoord line column s = .next t) :
    Untouched s t := by
  obtain ⟨-, -, rfl⟩ | hr := execMoveCursorToCoord_next h
  · exact ⟨rfl, rfl, rfl, rfl, rfl⟩
  · exact hr.untouched

theorem execPrint_untouched {buf : Word} {len : BitVec 16} (h : execPrint buf len s = .next t) : Untouched s t := by
  obtain ⟨-, -, -, rfl⟩ | hr := execPrint_next h
  · exact ⟨rfl, rfl, rfl, rfl, rfl⟩
  · exact hr.untouched

/-- PROCESS: its handler keeps them, and so does the accounting after it (R200). -/
theorem execProcess_untouched (h : execProcess s = .next t) : Untouched s t := by
  obtain ⟨-, rfl⟩ | ⟨st, u, -, hu, rfl⟩ := execProcess_next s h
  · exact .refl s
  · exact (handler_kept hu).untouched.trans (account_untouched st u)

theorem byteForm_untouched {b : Byte} {rs : Bool} (h : byteForm b rs s = .next t) : Untouched s t :=
  answer_untouched (u := setupByte b rs s) ⟨rfl, rfl, rfl, rfl, rfl⟩ h

theorem payloadForm_untouched {p : Byte} (h : payloadForm p s = .next t) : Untouched s t :=
  answer_untouched (writePayload_untouched p s) h

theorem execHdFunctionSet_untouched {dl n f : Bool} (h : execHdFunctionSet dl n f s = .next t) : Untouched s t := by
  refine answer_untouched ?_ h
  cases dl
  · exact ⟨rfl, rfl, rfl, rfl, rfl⟩
  · exact probeSetup_untouched (functionSetByte true n f) s

/-- No instruction writes the build, host memory, the inputs to come or the port's argument words. -/
theorem exec_untouched {i : Instr} (h : exec i s = .next t) : Untouched s t := by
  cases i with
  | init a => exact execInit_untouched h
  | process => exact execProcess_untouched h
  | reset => exact answer_untouched (u := resetRegisters s) ⟨rfl, rfl, rfl, rfl, rfl⟩ h
  | getState | readDiag => exact answer_untouched (.refl s) h
  | clear | home | moveRelative | shiftDisplay => exact operation_untouched h (.refl s)
  | setDisplayOnOff | setCursorVisible | setBlinkingCursor | setBacklight | setEntryMode =>
    simp only [exec] at h
    exact operation_untouched h ⟨rfl, rfl, rfl, rfl, rfl⟩
  | moveCursorToCoord line column => exact execMoveCursorToCoord_untouched h
  | print buf len => exact execPrint_untouched h
  | hdFunctionSet dl n f => exact execHdFunctionSet_untouched h
  | hdClear | hdHome | hdEntryModeSet | hdDisplayControl | hdCursorShift | hdSetDdramAddr | hdData =>
    exact byteForm_untouched h
  | payRaise | payFall | payBacklight | payProbeRaise | payProbeFall => exact payloadForm_untouched h

/-! ## The build over a step -/

@[simp] theorem latchArgs_build (c : Code) (s : State) : (latchArgs c s).build = s.build := by
  cases c <;> rfl

/-- A word that selects no instruction is answered, if it is a transaction at all, with a status alone (R115). -/
theorem undecoded_untouched {c : Code} (h : undecoded c s = .next t) : Untouched s t := by
  cases c with
  | host => exact answer_untouched (.refl s) h
  | hdInstruction | hdDataByte | nibblePayload | probePayload | backlightPayload => cases h

theorem runCode_build {c : Code} (h : runCode c s = .next t) : t.build = s.build := by
  obtain ⟨hb, -⟩ : Untouched (latchArgs c s) t := by
    unfold runCode at h
    split at h
    · exact exec_untouched h
    · exact undecoded_untouched h
  exact hb.trans (latchArgs_build c s)

theorem takeInput_build {e : Input} (h : takeInput e s = .next t) : t.build = s.build := by
  cases e with
  | run | writeCmd => exact runCode_build h
  | writeArg0 | writeArg1 | writeMem => cases h; rfl

/-- Settles O12: an instruction leaves the build untouched, and no other input of the host reaches it. -/
theorem buildIsFixed : Obligations.BuildIsFixed := by
  intro s t h
  unfold step stepInput at h
  split at h
  · cases h; rfl
  · exact (takeInput_build h).trans (State.withInputs_build s _)

end Sys2Proof.Machine

/-!
PROOFS. The sequencer registers (10_state.md section 2): who writes `initialized`.
-/

namespace Sys2Proof.Machine

variable {s t : State}

/-- `dev_state()` = NOT_INITIALIZED, in the registers (R53). -/
theorem devState_notInitialized : devState s = .notInitialized ↔ s.seq.initialized = false := by
  unfold devState
  cases s.seq.initialized with
  | false => simp
  | true => by_cases hi : s.seq.active = .init <;> by_cases hr : s.seq.active = .idle <;> simp [hi, hr]

/-! ## The shared operations leave `initialized` -/

@[simp] theorem load_initialized (a : Active) (p : CmdParams) (s : State) :
    (load a p s).seq.initialized = s.seq.initialized := rfl

@[simp] theorem finalize_initialized (s : State) : (finalize s).seq.initialized = s.seq.initialized := by
  unfold finalize
  split <;> rfl

@[simp] theorem printNext_initialized (s : State) : (printNext s).seq.initialized = s.seq.initialized := by
  unfold printNext
  dsimp only
  split <;> rfl

@[simp] theorem forceDisplayOff_initialized (s : State) :
    (forceDisplayOff s).seq.initialized = s.seq.initialized := by
  unfold forceDisplayOff
  split <;> rfl

@[simp] theorem writePayload_initialized (p : Byte) (s : State) :
    (writePayload p s).2.seq.initialized = s.seq.initialized := by
  obtain ⟨-, h⟩ | ⟨-, h, -⟩ := writePayload_cases s p <;> rw [h] <;> rfl

@[simp] theorem probeSetup_initialized (b : Byte) (s : State) :
    (probeSetup b s).2.seq.initialized = s.seq.initialized := by
  obtain ⟨k, -, h⟩ | ⟨-, h⟩ := probeSetup_cases s b <;> rw [h] <;> rfl

/-- The accounting keeps `initialized`, the escalation included (R345). -/
@[simp] theorem account_initialized (st : Status) (s : State) :
    (account st s).2.seq.initialized = s.seq.initialized := by
  obtain ⟨-, h⟩ | ⟨-, -, h⟩ | ⟨-, -, h⟩ | h := account_cases s st <;> rw [h] <;> rfl

/-! ## The steps of a transfer and the handlers leave `initialized` -/

@[simp] theorem tickStep_initialized (s : State) : (tickStep s).state.seq.initialized = s.seq.initialized := by
  obtain ⟨k, -, h⟩ | ⟨-, h⟩ := tickStep_cases s <;> rw [h] <;> rfl

@[simp] theorem raiseStep_initialized (s : State) : (raiseStep s).state.seq.initialized = s.seq.initialized := by
  obtain ⟨-, h⟩ | ⟨-, -, h⟩ := raiseStep_cases s <;> rw [h]
  · exact tickStep_initialized (raised s)
  · rfl

@[simp] theorem afterFall_initialized (s : State) : (afterFall s).state.seq.initialized = s.seq.initialized := by
  obtain ⟨-, -, h⟩ | ⟨-, h⟩ := afterFall_cases s <;> rw [h] <;> rfl

@[simp] theorem fallStep_initialized (s : State) : (fallStep s).state.seq.initialized = s.seq.initialized := by
  obtain ⟨-, h⟩ | ⟨e, -, ⟨-, h⟩ | ⟨-, -, h⟩ | ⟨-, -, -, h⟩⟩ := fallStep_cases s <;> rw [h]
  · rfl
  · rfl
  · exact afterFall_initialized (written (afterTimebase (waitCall s) s) (pay false s))
  · rfl

theorem settleStep_initialized {r : Ran} (h : settleStep s = .ok r) :
    r.state.seq.initialized = s.seq.initialized := by
  obtain ⟨-, h'⟩ | ⟨l, -, ⟨-, h'⟩ | ⟨e, -, ⟨-, h'⟩ | ⟨-, h'⟩⟩⟩ := settleStep_cases s <;> rw [h'] at h <;> cases h
  · rfl
  · rfl
  · exact raiseStep_initialized (afterTimebase (waitCall s) s)

theorem sendByteStep_initialized {b : SubState} {r : Ran} (h : sendByteStep b s = .ok r) :
    r.state.seq.initialized = s.seq.initialized := by
  cases b with
  | settle => exact settleStep_initialized h
  | setup => cases h
  | hRaise | lRaise => cases h; exact raiseStep_initialized s
  | hTick | lTick => cases h; exact tickStep_initialized s
  | hWait | lWait => cases h; exact fallStep_initialized s

/-- A driven transfer keeps `initialized` when its setup entry and its end do. -/
theorem drive_initialized {f : State → Except Fault (Status × State)} {g : State → State} {st : Status} {u : State}
    (hf : ∀ {st u}, f s = .ok (st, u) → u.seq.initialized = s.seq.initialized)
    (hg : ∀ v, (g v).seq.initialized = v.seq.initialized) (h : drive f g s = .ok (st, u)) :
    u.seq.initialized = s.seq.initialized := by
  obtain ⟨-, h'⟩ | ⟨-, h'⟩ | ⟨b, -, -, ⟨e, -, h'⟩ | ⟨r, hr, h'⟩⟩ := drive_cases s f g <;> rw [h'] at h
  · cases h
  · exact hf h
  · cases h
  · have hsend := sendByteStep_initialized hr
    split at h <;> cases h
    · split
      · exact (hg r.state).trans hsend
      · exact hsend
    · exact hsend

theorem runByte_initialized {b : Byte} {st : Status} {u : State} (h : runByte b s = .ok (st, u)) :
    u.seq.initialized = s.seq.initialized :=
  drive_initialized (fun h => by cases h; rfl) finalize_initialized h

theorem probeStep_initialized {st : Status} {u : State} (h : probeStep s = .ok (st, u)) :
    u.seq.initialized = s.seq.initialized := by
  refine drive_initialized (fun {st u} hs => ?_) finalize_initialized h
  have hp := probeSetup_initialized probeByte s
  rwa [Except.ok.inj hs] at hp

theorem bootstrapHandler_initialized {st : Status} {u : State} (h : bootstrapHandler s = .ok (st, u)) :
    u.seq.initialized = s.seq.initialized := by
  obtain ⟨-, h'⟩ | ⟨-, -, -, b, h'⟩ | ⟨-, h'⟩ | ⟨-, h'⟩ | ⟨-, h'⟩ := bootstrapHandler_cases s <;> rw [h'] at h
  · exact probeStep_initialized h
  · exact runByte_initialized h
  · exact (runByte_initialized h).trans (forceDisplayOff_initialized s)
  · cases h; rfl
  · cases h

theorem printSetup_initialized {st : Status} {u : State} (h : printSetup s = .ok (st, u)) :
    u.seq.initialized = s.seq.initialized := by
  unfold printSetup memRead at h
  cases hm : memGet s.mem (fetchAddr s).toNat with
  | none => simp [hm] at h
  | some c =>
    simp only [hm] at h
    cases h
    rfl

theorem printHandler_initialized {st : Status} {u : State} (h : printHandler s = .ok (st, u)) :
    u.seq.initialized = s.seq.initialized :=
  drive_initialized printSetup_initialized printNext_initialized h

theorem backlightHandler_initialized (s : State) : (backlightHandler s).2.seq.initialized = s.seq.initialized := by
  obtain ⟨-, h⟩ | ⟨-, -, h⟩ := backlightHandler_cases s <;> rw [h] <;> rfl

/-- No handler writes `initialized` (R41). -/
theorem handler_initialized {st : Status} {u : State} (h : handler s = .ok (st, u)) :
    u.seq.initialized = s.seq.initialized := by
  obtain ⟨b, -, h'⟩ | ⟨-, h'⟩ | ⟨-, h'⟩ | ⟨-, h'⟩ | ⟨k, -, h'⟩ | ⟨-, h'⟩ := handler_cases s <;> rw [h'] at h
  · exact runByte_initialized h
  · exact bootstrapHandler_initialized h
  · exact printHandler_initialized h
  · have hb := backlightHandler_initialized s
    rwa [Except.ok.inj h] at hb
  · cases h
  · cases h; rfl

/-! ## The instructions and `initialized`, by their kinds -/

theorem Refuses.initialized (h : Refuses s t) : t.seq.initialized = s.seq.initialized := by
  obtain ⟨st, -, rfl⟩ := h
  rfl

theorem Refuses.status_ne_ok (h : Refuses s t) : t.port.status ≠ .ok := by
  obtain ⟨st, hst, rfl⟩ := h
  exact hst

theorem operation_initialized {toggle : Bool} {write : State → State} {a : Active} {p : CmdParams}
    (h : operation toggle write a p s = .next t) (hw : (write s).seq = s.seq) :
    t.seq.initialized = s.seq.initialized := by
  obtain ⟨-, rfl⟩ | hr := operation_next h
  · simp [hw]
  · exact hr.initialized

theorem execMoveCursorToCoord_initialized {line column : Byte} (h : execMoveCursorToCoord line column s = .next t) :
    t.seq.initialized = s.seq.initialized := by
  obtain ⟨-, -, rfl⟩ | hr := execMoveCursorToCoord_next h
  · rfl
  · exact hr.initialized

theorem execPrint_initialized {buf : Word} {len : BitVec 16} (h : execPrint buf len s = .next t) :
    t.seq.initialized = s.seq.initialized := by
  obtain ⟨-, -, -, rfl⟩ | hr := execPrint_next h
  · rfl
  · exact hr.initialized

theorem execProcess_initialized (h : execProcess s = .next t) : t.seq.initialized = s.seq.initialized := by
  obtain ⟨-, rfl⟩ | ⟨st, u, -, hu, rfl⟩ := execProcess_next s h
  · rfl
  · exact (account_initialized st u).trans (handler_initialized hu)

theorem payloadForm_initialized {p : Byte} (h : payloadForm p s = .next t) :
    t.seq.initialized = s.seq.initialized := by
  cases h
  exact writePayload_initialized p s

theorem execHdFunctionSet_initialized {dl n f : Bool} (h : execHdFunctionSet dl n f s = .next t) :
    t.seq.initialized = s.seq.initialized := by
  cases h
  cases dl
  · rfl
  · exact probeSetup_initialized (functionSetByte true n f) s

/-- A successful INIT writes `initialized` to 1 (R41, R240). -/
theorem execInit_ok_initialized {a : DisplayConfig} (h : execInit a s = .next t) (hok : t.port.status = .ok) :
    t.seq.initialized = true := by
  obtain ⟨-, -, rfl⟩ | hr := execInit_next h
  · rfl
  · exact absurd hok hr.status_ne_ok

/-- A rejected INIT keeps `initialized` (R240). -/
theorem execInit_rejected_initialized {a : DisplayConfig} (h : execInit a s = .next t) (hne : t.port.status ≠ .ok) :
    t.seq.initialized = s.seq.initialized := by
  obtain ⟨-, -, rfl⟩ | hr := execInit_next h
  · exact absurd rfl hne
  · exact hr.initialized

/-- RESET writes `initialized` to 0 (R41, R214). -/
theorem execReset_initialized (h : execReset s = .next t) : t.seq.initialized = false := by
  cases h
  rfl

/-- No instruction but RESET and a successful INIT writes `initialized` (R41). -/
theorem exec_keeps_initialized {i : Instr} (h : exec i s = .next t) (hreset : i ≠ .reset)
    (hinit : ¬((∃ a, i = .init a) ∧ t.port.status = .ok)) : t.seq.initialized = s.seq.initialized := by
  cases i with
  | init a => exact execInit_rejected_initialized h fun hok => hinit ⟨⟨a, rfl⟩, hok⟩
  | reset => exact absurd rfl hreset
  | process => exact execProcess_initialized h
  | getState | readDiag => cases h; rfl
  | clear | home | moveRelative | shiftDisplay => exact operation_initialized h rfl
  | setDisplayOnOff | setCursorVisible | setBlinkingCursor | setBacklight | setEntryMode =>
    simp only [exec] at h
    exact operation_initialized h rfl
  | moveCursorToCoord line column => exact execMoveCursorToCoord_initialized h
  | print buf len => exact execPrint_initialized h
  | hdFunctionSet dl n f => exact execHdFunctionSet_initialized h
  | hdClear | hdHome | hdEntryModeSet | hdDisplayControl | hdCursorShift | hdSetDdramAddr | hdData => cases h; rfl
  | payRaise | payFall | payBacklight | payProbeRaise | payProbeFall => exact payloadForm_initialized h

/-- Settles O29: of the instructions only RESET and an accepted INIT write `initialized`. -/
theorem initializedWriters : Obligations.InitializedWriters := by
  refine ⟨rfl, fun s => devState_notInitialized.symm, fun i s t h => ⟨?_, ?_, exec_keeps_initialized h⟩⟩
  · rintro rfl
    exact execReset_initialized h
  · rintro ⟨a, rfl⟩ hok
    exact execInit_ok_initialized h hok

end Sys2Proof.Machine

/-!
PROOFS. The encodings (30_encoding.md section 1): argument bits that R113 does not assign are ignored (R114). The decoder reads
the assigned bits alone, and no instruction reads the port's argument words.
-/

namespace Sys2Proof.Machine

/-! ## The decoder reads the assigned bits alone -/

/-- A field is read through a mask that has all of its bits. -/
theorem extractLsb'_and_of_ones {n i k : Nat} {m : BitVec n} (w : BitVec n) (h : m.extractLsb' i k = .allOnes k) :
    (w &&& m).extractLsb' i k = w.extractLsb' i k := by
  rw [BitVec.extractLsb'_and, h, BitVec.and_allOnes]

/-- A flag is read through a mask that has its bit. -/
theorem getLsbD_and_of_one {n i : Nat} {m : BitVec n} (w : BitVec n) (h : m.getLsbD i = true) :
    (w &&& m).getLsbD i = w.getLsbD i := by
  rw [BitVec.getLsbD_and, h, Bool.and_true]

/-- The transaction with the argument bits cleared that R113 does not assign to its command. -/
def assignedBits (t : Txn) : Txn := ⟨t.cmd, t.arg0 &&& argMask0 t.cmd, t.arg1 &&& argMask1 t.cmd⟩

/-- The fields of INIT lie in the bits R113 assigns. -/
theorem initArgs_and (arg0 arg1 : Word) : initArgs (arg0 &&& 0x7FFF) (arg1 &&& 0xFFFFFFFF) = initArgs arg0 arg1 := by
  simp (disch := decide) only [initArgs, extractLsb'_and_of_ones, getLsbD_and_of_one]

/-- The decoder does not read the argument bits R113 leaves unassigned: by cases on the command. -/
theorem decodeHost_assignedBits (t : Txn) : decodeHost (assignedBits t) = decodeHost t := by
  obtain ⟨cmd, arg0, arg1⟩ := t
  have hall : arg0 &&& 0xFFFFFFFF = arg0 := BitVec.and_allOnes
  simp only [decodeHost, assignedBits, argMask0, argMask1]
  split <;> simp (disch := decide) only [*, initArgs_and, extractLsb'_and_of_ones, getLsbD_and_of_one]

/-! ## No instruction reads the port's argument words: each commutes with a write of them -/

/-- The state with the port's argument words written (R111). -/
def State.withArgs (a b : Word) (s : State) : State := s.withPort { s.port with arg0 := a, arg1 := b }

/-- A step of a transfer with its state rewritten. -/
def Ran.mapState (f : State → State) (r : Ran) : Ran := ⟨r.status, r.done, f r.state⟩

/-- The result of a handler with its state rewritten. -/
def mapHandled (f : State → State) : Except Fault (Status × State) → Except Fault (Status × State) :=
  Except.map (Prod.map id f)

variable (a b : Word) (s : State)

@[simp] theorem State.withArgs_cfg : (s.withArgs a b).cfg = s.cfg := rfl
@[simp] theorem State.withArgs_seq : (s.withArgs a b).seq = s.seq := rfl
@[simp] theorem State.withArgs_mem : (s.withArgs a b).mem = s.mem := rfl

/-! ### The transfer -/

theorem tickNow_withArgs : tickNow (s.withArgs a b) = Prod.map id (.withArgs a b) (tickNow s) := rfl

theorem elapsed_withArgs (ref : Nat) :
    elapsed ref (s.withArgs a b) = Prod.map id (.withArgs a b) (elapsed ref s) := rfl

theorem writePayload_withArgs (p : Byte) :
    writePayload p (s.withArgs a b) = Prod.map id (.withArgs a b) (writePayload p s) := by
  unfold writePayload
  rw [apply_ite (Prod.map id _)]
  rfl

theorem tickStep_withArgs : tickStep (s.withArgs a b) = (tickStep s).mapState (.withArgs a b) := by
  unfold tickStep
  rw [tickNow_withArgs]
  obtain ⟨_ | _, u⟩ := tickNow s <;> rfl

theorem raiseStep_withArgs : raiseStep (s.withArgs a b) = (raiseStep s).mapState (.withArgs a b) := by
  have hpay : pay true (s.withArgs a b) = pay true s := rfl
  unfold raiseStep
  rw [hpay, writePayload_withArgs, apply_ite (Ran.mapState _), ← tickStep_withArgs]
  rfl

theorem settleStep_withArgs : settleStep (s.withArgs a b) = (settleStep s).map (.mapState (.withArgs a b)) := by
  have hlimit : settleTime (s.withArgs a b) = settleTime s := rfl
  unfold settleStep
  rw [hlimit, State.withArgs_seq, elapsed_withArgs]
  cases settleTime s with
  | none => rfl
  | some limit =>
    obtain ⟨e | _, u⟩ := elapsed s.seq.waitStart s
    · dsimp only [Prod.map, id]
      rw [raiseStep_withArgs, apply_ite (Except.map _)]
      rfl
    · rfl

theorem afterFall_withArgs : afterFall (s.withArgs a b) = (afterFall s).mapState (.withArgs a b) := by
  unfold afterFall
  dsimp only
  rw [apply_ite (Ran.mapState _)]
  rfl

theorem fallStep_withArgs : fallStep (s.withArgs a b) = (fallStep s).mapState (.withArgs a b) := by
  have hlimit : tEn (s.withArgs a b) = tEn s := rfl
  unfold fallStep
  rw [hlimit, State.withArgs_seq, elapsed_withArgs]
  obtain ⟨e | _, u⟩ := elapsed s.seq.waitStart s
  · have hpay : pay false (u.withArgs a b) = pay false u := rfl
    dsimp only [Prod.map, id]
    rw [hpay, writePayload_withArgs]
    dsimp only [Prod.map, id]
    rw [afterFall_withArgs, apply_ite (Ran.mapState _), apply_ite (Ran.mapState _)]
    rfl
  · rfl

theorem sendByteStep_withArgs (n : SubState) :
    sendByteStep n (s.withArgs a b) = (sendByteStep n s).map (.mapState (.withArgs a b)) := by
  cases n with
  | setup => rfl
  | settle => exact settleStep_withArgs a b s
  | hRaise | lRaise => exact congrArg Except.ok (raiseStep_withArgs a b s)
  | hTick | lTick => exact congrArg Except.ok (tickStep_withArgs a b s)
  | hWait | lWait => exact congrArg Except.ok (fallStep_withArgs a b s)

theorem probeSetup_withArgs (p : Byte) :
    probeSetup p (s.withArgs a b) = Prod.map id (.withArgs a b) (probeSetup p s) := by
  unfold probeSetup
  rw [tickNow_withArgs]
  obtain ⟨_ | _, u⟩ := tickNow s <;> rfl

/-! ### The handlers -/

/-- A driven transfer commutes with the write when its setup entry and its end do. -/
theorem drive_withArgs {f : State → Except Fault (Status × State)} {g : State → State}
    (hf : f (s.withArgs a b) = mapHandled (.withArgs a b) (f s))
    (hg : ∀ v : State, g (v.withArgs a b) = (g v).withArgs a b) :
    drive f g (s.withArgs a b) = mapHandled (.withArgs a b) (drive f g s) := by
  unfold drive
  rw [State.withArgs_seq]
  rcases subState s.seq.sub with _ | n
  · rfl
  · cases n with
    | setup => exact hf
    | settle | hRaise | hTick | hWait | lRaise | lTick | lWait =>
      dsimp only
      rw [sendByteStep_withArgs]
      rcases sendByteStep _ s with e | ⟨st, done, u⟩
      · rfl
      · dsimp only [Except.map, Ran.mapState]
        rw [hg, ← apply_ite (State.withArgs a b), apply_ite (mapHandled _)]
        rfl

theorem finalize_withArgs : finalize (s.withArgs a b) = (finalize s).withArgs a b := by
  unfold finalize
  rw [apply_ite (State.withArgs a b)]
  rfl

theorem printNext_withArgs : printNext (s.withArgs a b) = (printNext s).withArgs a b := by
  unfold printNext
  dsimp only
  rw [apply_ite (State.withArgs a b)]
  rfl

theorem runByte_withArgs (c : Byte) : runByte c (s.withArgs a b) = mapHandled (.withArgs a b) (runByte c s) :=
  drive_withArgs a b s rfl (finalize_withArgs a b)

theorem probeStep_withArgs : probeStep (s.withArgs a b) = mapHandled (.withArgs a b) (probeStep s) :=
  drive_withArgs a b s (congrArg Except.ok (probeSetup_withArgs a b s probeByte)) (finalize_withArgs a b)

theorem forceDisplayOff_withArgs : forceDisplayOff (s.withArgs a b) = (forceDisplayOff s).withArgs a b := by
  unfold forceDisplayOff
  rw [apply_ite (State.withArgs a b)]
  rfl

theorem bootstrapHandler_withArgs :
    bootstrapHandler (s.withArgs a b) = mapHandled (.withArgs a b) (bootstrapHandler s) := by
  unfold bootstrapHandler
  rw [State.withArgs_seq, forceDisplayOff_withArgs]
  generalize s.seq.subStep.toNat = n
  match n with
  | 0 | 1 | 2 => exact probeStep_withArgs a b s
  | 3 | 4 | 6 | 7 => exact runByte_withArgs a b s _
  | 5 => exact runByte_withArgs a b (forceDisplayOff s) _
  | 8 | _ + 9 => rfl

theorem printSetup_withArgs : printSetup (s.withArgs a b) = mapHandled (.withArgs a b) (printSetup s) := by
  have haddr : fetchAddr (s.withArgs a b) = fetchAddr s := rfl
  simp only [printSetup, memRead, haddr, State.withArgs_mem]
  cases memGet s.mem (fetchAddr s).toNat <;> rfl

theorem printHandler_withArgs : printHandler (s.withArgs a b) = mapHandled (.withArgs a b) (printHandler s) :=
  drive_withArgs a b s (printSetup_withArgs a b s) (printNext_withArgs a b)

theorem backlightHandler_withArgs :
    backlightHandler (s.withArgs a b) = Prod.map id (.withArgs a b) (backlightHandler s) := by
  unfold backlightHandler
  rw [State.withArgs_cfg, writePayload_withArgs]
  dsimp only
  rw [apply_ite (Prod.map id _)]
  rfl

theorem handler_withArgs : handler (s.withArgs a b) = mapHandled (.withArgs a b) (handler s) := by
  have hbyte : cmdByte s.seq.active (s.withArgs a b) = cmdByte s.seq.active s := by cases s.seq.active <;> rfl
  unfold handler
  rw [State.withArgs_seq, hbyte]
  rcases cmdByte s.seq.active s with _ | c
  · cases s.seq.active with
    | init => exact bootstrapHandler_withArgs a b s
    | print => exact printHandler_withArgs a b s
    | backlight => exact congrArg Except.ok (backlightHandler_withArgs a b s)
    | unassigned | idle | clear | home | displayControls | entryMode | moveAbs | moveRel | shiftDisplay => rfl
  · exact runByte_withArgs a b s c

theorem account_withArgs (st : Status) :
    account st (s.withArgs a b) = Prod.map id (.withArgs a b) (account st s) := by
  have hcount : countError st (s.withArgs a b) = Prod.map id (.withArgs a b) (countError st s) := by
    unfold countError
    rw [apply_ite (Prod.map id _)]
    rfl
  cases st with
  | i2cInvalidAddress | i2cNotResponding | i2cMalformedRequest => exact hcount
  | ok | i2cBusy | timebaseFailure | invalidArgument | nullReference | notInitialized | deviceBusy | wrongState
  | maxConsecutiveErrors => rfl

/-! ### The instructions -/

theorem operation_withArgs {toggle : Bool} {write : State → State} {c : Active} {p : CmdParams}
    (hw : write (s.withArgs a b) = (write s).withArgs a b) :
    operation toggle write c p (s.withArgs a b) = mapNext (.withArgs a b) (operation toggle write c p s) := by
  unfold operation
  rw [hw, apply_ite (mapNext _)]
  rfl

theorem execInit_withArgs (c : DisplayConfig) :
    execInit c (s.withArgs a b) = mapNext (.withArgs a b) (execInit c s) := by
  unfold execInit
  rw [apply_ite (mapNext _), apply_ite (mapNext _)]
  rfl

theorem execMoveCursorToCoord_withArgs (line column : Byte) : execMoveCursorToCoord line column (s.withArgs a b) =
    mapNext (.withArgs a b) (execMoveCursorToCoord line column s) := by
  unfold execMoveCursorToCoord
  rw [operation_withArgs a b s (write := id) rfl, apply_ite (mapNext _)]
  rfl

theorem execPrint_withArgs (buf : Word) (len : BitVec 16) :
    execPrint buf len (s.withArgs a b) = mapNext (.withArgs a b) (execPrint buf len s) := by
  unfold execPrint
  rw [operation_withArgs a b s (write := id) rfl, apply_ite (mapNext _), apply_ite (mapNext _)]
  rfl

theorem execProcess_withArgs : execProcess (s.withArgs a b) = mapNext (.withArgs a b) (execProcess s) := by
  unfold execProcess
  rw [State.withArgs_seq, handler_withArgs, apply_ite (mapNext _)]
  rcases handler s with f | ⟨st, u⟩
  · rfl
  · have hend : endProcess st (u.withArgs a b) = mapNext (.withArgs a b) (endProcess st u) := by
      unfold endProcess
      rw [account_withArgs]
      rfl
    dsimp only [mapHandled, Except.map, Prod.map, id]
    rw [hend]
    rfl

theorem payloadForm_withArgs (p : Byte) :
    payloadForm p (s.withArgs a b) = mapNext (.withArgs a b) (payloadForm p s) := by
  simp only [payloadForm, writePayload_withArgs]
  rfl

theorem execHdFunctionSet_withArgs (dl n f : Bool) :
    execHdFunctionSet dl n f (s.withArgs a b) = mapNext (.withArgs a b) (execHdFunctionSet dl n f s) := by
  simp only [execHdFunctionSet, probeSetup_withArgs]
  cases dl <;> rfl

/-- No instruction reads the port's argument words or writes them. -/
theorem exec_withArgs (i : Instr) : exec i (s.withArgs a b) = mapNext (.withArgs a b) (exec i s) := by
  cases i with
  | init c => exact execInit_withArgs a b s c
  | process => exact execProcess_withArgs a b s
  | reset | getState | readDiag => rfl
  | clear | home | moveRelative | shiftDisplay => exact operation_withArgs a b s (write := id) rfl
  | setDisplayOnOff | setCursorVisible | setBlinkingCursor | setBacklight | setEntryMode =>
    dsimp only [exec]
    refine operation_withArgs a b s ?_
    rfl
  | moveCursorToCoord line column => exact execMoveCursorToCoord_withArgs a b s line column
  | print buf len => exact execPrint_withArgs a b s buf len
  | hdFunctionSet dl n f => exact execHdFunctionSet_withArgs a b s dl n f
  | hdClear | hdHome | hdEntryModeSet | hdDisplayControl | hdCursorShift | hdSetDdramAddr | hdData => rfl
  | payRaise | payFall | payBacklight | payProbeRaise | payProbeFall => exact payloadForm_withArgs a b s _

/-! ## A transaction's outcome, the argument words aside -/

/-- What a host transaction does besides leaving its argument words at the port: its instruction, or the refusal of its code. -/
def runDecoded (d : Option Instr) (s : State) : Host.Outcome State Fault Refusal :=
  d.elim (respond .invalidArgument s) (exec · s)

/-- With the port's argument words overwritten, a transaction's outcome is that of what it decodes to. -/
theorem mapNext_withArgs_runCode (t : Txn) :
    mapNext (.withArgs a b) (runCode (.host t) s) = mapNext (.withArgs a b) (runDecoded (decodeHost t) s) := by
  have hmap : ∀ o, mapNext (.withArgs a b) (mapNext (.withArgs t.arg0 t.arg1) o) = mapNext (.withArgs a b) o := by
    rintro (u | f | r) <;> rfl
  have hlatch : latchArgs (.host t) s = s.withArgs t.arg0 t.arg1 := rfl
  have hdecode : decode (.host t) = decodeHost t := rfl
  unfold runCode
  rw [hdecode, hlatch]
  cases decodeHost t with
  | none => rfl
  | some i => exact (congrArg _ (exec_withArgs t.arg0 t.arg1 s i)).trans (hmap (exec i s))

/-- Settles O3: the decoder reads the assigned bits alone, and no instruction reads the argument words. -/
theorem unassignedArgumentBitsIgnored : Obligations.UnassignedArgumentBitsIgnored := by
  intro s rest t t' hcmd h0 h1
  have hbits : assignedBits t = assignedBits t' := by
    unfold assignedBits
    rw [h0, h1, hcmd]
  have hdecode : decodeHost t = decodeHost t' := by
    rw [← decodeHost_assignedBits t, hbits, decodeHost_assignedBits]
  calc mapNext (.withArgs 0 0) (runCode (.host t) (s.withInputs rest))
    _ = mapNext (.withArgs 0 0) (runDecoded (decodeHost t) (s.withInputs rest)) := mapNext_withArgs_runCode 0 0 _ t
    _ = mapNext (.withArgs 0 0) (runDecoded (decodeHost t') (s.withInputs rest)) := by rw [hdecode]
    _ = mapNext (.withArgs 0 0) (runCode (.host t') (s.withInputs rest)) := (mapNext_withArgs_runCode 0 0 _ t').symm

end Sys2Proof.Machine

/-!
PROOFS. The payloads (30_encoding.md section 2): RW is 0 in every payload written (R122), and an instruction writes at most one.
-/

namespace Sys2Proof.Machine

variable {s t u : State}

/-! ## The payloads have RW = 0 -/

theorem payloadByte_rw (n : Nibble) (bl en rs : Bool) : (payloadByte n bl en rs).getLsbD 1 = false := by
  cases bl <;> cases en <;> cases rs <;> simp [payloadByte, flagByte]

theorem backlightByte_rw (bl : Bool) : (backlightByte bl).getLsbD 1 = false := by
  cases bl <;> rfl

/-! ## The calls made between two states -/

/-- The call is no write of a payload with RW = 1 (R122). -/
def Call.RwClear : Call → Prop
  | .i2cWrite _ _ p _ _ => p.getLsbD 1 = false
  | .getTick _ _ | .durationSince _ _ _ | .memRead _ _ => True

/-- From s to t the block made further calls, at most n of them writes, and none of a payload with RW = 1. -/
def WritesAtMost (n : Nat) (s t : State) : Prop :=
  ∃ made, t.env.trace = made ++ s.env.trace ∧ made.countP Call.isI2cWrite ≤ n ∧ ∀ c ∈ made, c.RwClear

namespace WritesAtMost

variable {m n : Nat}

/-- No call at all. -/
theorem of_trace_eq (h : t.env.trace = s.env.trace) : WritesAtMost n s t :=
  ⟨[], h, Nat.zero_le n, by simp⟩

/-- One call that is no write. -/
theorem of_call {c : Call} (hc : c.isI2cWrite = false) (h : t.env.trace = c :: s.env.trace) : WritesAtMost n s t := by
  refine ⟨[c], h, by simp [hc], ?_⟩
  cases c with
  | i2cWrite => cases hc
  | getTick | durationSince | memRead => simp [Call.RwClear]

/-- One write of a payload with RW = 0. -/
theorem of_write {p : Byte} (hp : p.getLsbD 1 = false) (s : State) : WritesAtMost 1 s (afterI2c p s) :=
  ⟨[_], afterI2c_trace s p, List.countP_le_length, by simpa [Call.RwClear] using hp⟩

theorem trans (h : WritesAtMost m s t) (k : WritesAtMost n t u) : WritesAtMost (m + n) s u := by
  obtain ⟨xs, ht, hm, hx⟩ := h
  obtain ⟨ys, hu, hn, hy⟩ := k
  refine ⟨ys ++ xs, by rw [hu, ht, List.append_assoc], ?_, ?_⟩
  · rw [List.countP_append]
    omega
  · intro c hc
    exact (List.mem_append.mp hc).elim (hy c) (hx c)

theorem mono (h : WritesAtMost m s t) (hmn : m ≤ n) : WritesAtMost n s t := by
  obtain ⟨made, ht, hm, hrw⟩ := h
  exact ⟨made, ht, hm.trans hmn, hrw⟩

end WritesAtMost

/-! ## What the shared operations write -/

theorem writePayload_writes {p : Byte} (hp : p.getLsbD 1 = false) (s : State) :
    WritesAtMost 1 s (writePayload p s).2 := by
  obtain ⟨-, h⟩ | ⟨-, h, -⟩ := writePayload_cases s p <;> rw [h] <;> exact .of_write hp s

theorem probeSetup_writes (b : Byte) (s : State) : WritesAtMost 0 s (probeSetup b s).2 := by
  obtain ⟨k, -, h⟩ | ⟨-, h⟩ := probeSetup_cases s b <;> rw [h] <;> exact .of_call rfl (afterTimebase_trace s _)

theorem account_trace (st : Status) (s : State) : (account st s).2.env.trace = s.env.trace := by
  obtain ⟨-, h⟩ | ⟨-, -, h⟩ | ⟨-, -, h⟩ | h := account_cases s st <;> rw [h] <;> rfl

/-! ## What the steps of a transfer write -/

theorem tickStep_writes (s : State) : WritesAtMost 0 s (tickStep s).state := by
  obtain ⟨k, -, h⟩ | ⟨-, h⟩ := tickStep_cases s <;> rw [h] <;> exact .of_call rfl (afterTimebase_trace s _)

theorem raiseStep_writes (s : State) : WritesAtMost 1 s (raiseStep s).state := by
  have hw : WritesAtMost 1 s (afterI2c (pay true s) s) := .of_write (payloadByte_rw _ _ _ _) s
  obtain ⟨-, h⟩ | ⟨-, -, h⟩ := raiseStep_cases s <;> rw [h]
  · exact hw.trans (tickStep_writes (raised s))
  · exact hw

theorem afterFall_trace (s : State) : (afterFall s).state.env.trace = s.env.trace := by
  obtain ⟨-, -, h⟩ | ⟨-, h⟩ := afterFall_cases s <;> rw [h] <;> rfl

/-- The check of a wait is no write. -/
theorem waitCall_writes (s : State) : WritesAtMost 0 s (afterTimebase (waitCall s) s) :=
  .of_call rfl (afterTimebase_trace s _)

theorem fallStep_writes (s : State) : WritesAtMost 1 s (fallStep s).state := by
  have hc := waitCall_writes s
  have hw : WritesAtMost 1 s (afterI2c (pay false s) (afterTimebase (waitCall s) s)) :=
    hc.trans (.of_write (payloadByte_rw _ _ _ _) _)
  obtain ⟨-, h⟩ | ⟨e, -, ⟨-, h⟩ | ⟨-, -, h⟩ | ⟨-, -, -, h⟩⟩ := fallStep_cases s <;> rw [h]
  · exact hc.mono (Nat.zero_le 1)
  · exact hc.mono (Nat.zero_le 1)
  · exact hw.trans (n := 0) (.of_trace_eq (afterFall_trace _))
  · exact hw

theorem settleStep_writes {r : Ran} (h : settleStep s = .ok r) : WritesAtMost 1 s r.state := by
  have hc := waitCall_writes s
  obtain ⟨-, h'⟩ | ⟨l, -, ⟨-, h'⟩ | ⟨e, -, ⟨-, h'⟩ | ⟨-, h'⟩⟩⟩ := settleStep_cases s <;> rw [h'] at h <;> cases h
  · exact hc.mono (Nat.zero_le 1)
  · exact hc.mono (Nat.zero_le 1)
  · exact hc.trans (raiseStep_writes _)

theorem sendByteStep_writes {b : SubState} {r : Ran} (h : sendByteStep b s = .ok r) : WritesAtMost 1 s r.state := by
  cases b with
  | settle => exact settleStep_writes h
  | setup => cases h
  | hRaise | lRaise => cases h; exact raiseStep_writes s
  | hTick | lTick => cases h; exact (tickStep_writes s).mono (Nat.zero_le 1)
  | hWait | lWait => cases h; exact fallStep_writes s

/-! ## What the handlers write -/

theorem finalize_trace (s : State) : (finalize s).env.trace = s.env.trace := by
  unfold finalize
  split <;> rfl

theorem printNext_trace (s : State) : (printNext s).env.trace = s.env.trace := by
  unfold printNext
  dsimp only
  split <;> rfl

theorem forceDisplayOff_trace (s : State) : (forceDisplayOff s).env.trace = s.env.trace := by
  unfold forceDisplayOff
  split <;> rfl

/-- A driven transfer writes at most once when its setup entry writes nothing and its end makes no call. -/
theorem drive_writes {f : State → Except Fault (Status × State)} {g : State → State} {st : Status} {u : State}
    (hf : ∀ {st u}, f s = .ok (st, u) → WritesAtMost 0 s u) (hg : ∀ v, (g v).env.trace = v.env.trace)
    (h : drive f g s = .ok (st, u)) : WritesAtMost 1 s u := by
  obtain ⟨-, h'⟩ | ⟨-, h'⟩ | ⟨b, -, -, ⟨e, -, h'⟩ | ⟨r, hr, h'⟩⟩ := drive_cases s f g <;> rw [h'] at h
  · cases h
  · exact (hf h).mono (Nat.zero_le 1)
  · cases h
  · have hsend := sendByteStep_writes hr
    split at h <;> cases h
    · split
      · exact hsend.trans (n := 0) (.of_trace_eq (hg r.state))
      · exact hsend
    · exact hsend

theorem runByte_writes {b : Byte} {st : Status} (h : runByte b s = .ok (st, u)) : WritesAtMost 1 s u :=
  drive_writes (fun h => by cases h; exact .of_trace_eq rfl) finalize_trace h

theorem probeStep_writes {st : Status} (h : probeStep s = .ok (st, u)) : WritesAtMost 1 s u := by
  refine drive_writes (fun {st u} hs => ?_) finalize_trace h
  have hp := probeSetup_writes probeByte s
  rwa [Except.ok.inj hs] at hp

theorem bootstrapHandler_writes {st : Status} (h : bootstrapHandler s = .ok (st, u)) : WritesAtMost 1 s u := by
  obtain ⟨-, h'⟩ | ⟨-, -, -, b, h'⟩ | ⟨-, h'⟩ | ⟨-, h'⟩ | ⟨-, h'⟩ := bootstrapHandler_cases s <;> rw [h'] at h
  · exact probeStep_writes h
  · exact runByte_writes h
  · exact .trans (m := 0) (.of_trace_eq (forceDisplayOff_trace s)) (runByte_writes h)
  · cases h; exact .of_trace_eq rfl
  · cases h

/-- The setup entry of a character reads host memory and writes nothing. -/
theorem printSetup_writes {st : Status} (h : printSetup s = .ok (st, u)) : WritesAtMost 0 s u := by
  unfold printSetup memRead at h
  cases hm : memGet s.mem (fetchAddr s).toNat with
  | none => simp [hm] at h
  | some c =>
    simp only [hm] at h
    cases h
    exact .of_call (c := .memRead (fetchAddr s) c) rfl rfl

theorem printHandler_writes {st : Status} (h : printHandler s = .ok (st, u)) : WritesAtMost 1 s u :=
  drive_writes printSetup_writes printNext_trace h

theorem backlightHandler_writes (s : State) : WritesAtMost 1 s (backlightHandler s).2 := by
  have hw : WritesAtMost 1 s (afterI2c (backlightByte s.cfg.backlight) s) := .of_write (backlightByte_rw _) s
  obtain ⟨-, h⟩ | ⟨-, -, h⟩ := backlightHandler_cases s <;> rw [h] <;> exact hw

/-- A handler writes at most one payload (R171), with RW = 0. -/
theorem handler_writes {st : Status} (h : handler s = .ok (st, u)) : WritesAtMost 1 s u := by
  obtain ⟨b, -, h'⟩ | ⟨-, h'⟩ | ⟨-, h'⟩ | ⟨-, h'⟩ | ⟨k, -, h'⟩ | ⟨-, h'⟩ := handler_cases s <;> rw [h'] at h
  · exact runByte_writes h
  · exact bootstrapHandler_writes h
  · exact printHandler_writes h
  · have hb := backlightHandler_writes s
    rwa [Except.ok.inj h] at hb
  · cases h
  · cases h; exact .of_trace_eq rfl

/-! ## What the instructions write, by their kinds -/

theorem Refuses.trace (h : Refuses s t) : t.env.trace = s.env.trace := by
  obtain ⟨st, -, rfl⟩ := h
  rfl

theorem operation_trace {toggle : Bool} {write : State → State} {a : Active} {p : CmdParams}
    (h : operation toggle write a p s = .next t) (hw : (write s).env = s.env) : t.env.trace = s.env.trace := by
  obtain ⟨-, rfl⟩ | hr := operation_next h
  · exact congrArg Env.trace hw
  · exact hr.trace

theorem execInit_trace {a : DisplayConfig} (h : execInit a s = .next t) : t.env.trace = s.env.trace := by
  obtain ⟨-, -, rfl⟩ | hr := execInit_next h
  · rfl
  · exact hr.trace

theorem execMoveCursorToCoord_trace {line column : Byte} (h : execMoveCursorToCoord line column s = .next t) :
    t.env.trace = s.env.trace := by
  obtain ⟨-, -, rfl⟩ | hr := execMoveCursorToCoord_next h
  · rfl
  · exact hr.trace

theorem execPrint_trace {buf : Word} {len : BitVec 16} (h : execPrint buf len s = .next t) :
    t.env.trace = s.env.trace := by
  obtain ⟨-, -, -, rfl⟩ | hr := execPrint_next h
  · rfl
  · exact hr.trace

theorem execProcess_writes (h : execProcess s = .next t) : WritesAtMost 1 s t := by
  obtain ⟨-, rfl⟩ | ⟨st, u, -, hu, rfl⟩ := execProcess_next s h
  · exact .of_trace_eq rfl
  · exact (handler_writes hu).trans (n := 0) (.of_trace_eq (account_trace st u))

theorem payloadForm_writes {p : Byte} (hp : p.getLsbD 1 = false) (h : payloadForm p s = .next t) :
    WritesAtMost 1 s t := by
  cases h
  exact writePayload_writes hp s

theorem execHdFunctionSet_writes {dl n f : Bool} (h : execHdFunctionSet dl n f s = .next t) : WritesAtMost 0 s t := by
  cases h
  cases dl
  · exact .of_trace_eq rfl
  · exact probeSetup_writes (functionSetByte true n f) s

/-- Every instruction makes at most one write, of a payload with RW = 0: PROCESS by its handler, a payload form by its own
payload; the others make none. -/
theorem exec_writes {i : Instr} (h : exec i s = .next t) : WritesAtMost 1 s t := by
  cases i with
  | init a => exact .of_trace_eq (execInit_trace h)
  | process => exact execProcess_writes h
  | clear | home | moveRelative | shiftDisplay => exact .of_trace_eq (operation_trace h rfl)
  | setDisplayOnOff | setCursorVisible | setBlinkingCursor | setBacklight | setEntryMode =>
    simp only [exec] at h
    exact .of_trace_eq (operation_trace h rfl)
  | moveCursorToCoord line column => exact .of_trace_eq (execMoveCursorToCoord_trace h)
  | print buf len => exact .of_trace_eq (execPrint_trace h)
  | hdFunctionSet dl n f => exact (execHdFunctionSet_writes h).mono (Nat.zero_le 1)
  | reset | getState | readDiag | hdClear | hdHome | hdEntryModeSet | hdDisplayControl | hdCursorShift
  | hdSetDdramAddr | hdData => cases h; exact .of_trace_eq rfl
  | payBacklight bl => exact payloadForm_writes (backlightByte_rw bl) h
  | payRaise | payFall | payProbeRaise | payProbeFall => exact payloadForm_writes (payloadByte_rw _ _ _ _) h

/-! ## The output -/

theorem output_of_trace_append {made : List Call} (h : t.env.trace = made ++ s.env.trace) :
    output t = output s ++ (made.filterMap Call.accepted).reverse := by
  rw [output, output, h, List.filterMap_append, List.reverse_append]

/-- An accepted payload is that of a write. -/
theorem Call.accepted_eq_some {c : Call} {p : Byte} (h : c.accepted = some p) :
    ∃ id address maxRetries, c = .i2cWrite id address p maxRetries .ok := by
  cases c with
  | i2cWrite id address q maxRetries r =>
    cases r with
    | ok => cases h; exact ⟨id, address, maxRetries, rfl⟩
    | busy | invalidAddress | notResponding | malformed | other => cases h
  | getTick | durationSince | memRead => cases h

/-- There are no more accepted payloads than writes. -/
theorem length_filterMap_accepted_le (made : List Call) :
    (made.filterMap Call.accepted).length ≤ made.countP Call.isI2cWrite := by
  rw [List.length_filterMap_eq_countP]
  refine List.countP_mono_left fun c _ hc => ?_
  obtain ⟨p, hp⟩ := Option.isSome_iff_exists.mp hc
  obtain ⟨_, _, _, rfl⟩ := Call.accepted_eq_some hp
  rfl

/-- At most one write adds at most one payload to the output, with RW = 0. -/
theorem WritesAtMost.output_cases (h : WritesAtMost 1 s t) :
    output t = output s ∨ ∃ p, output t = output s ++ [p] ∧ p.getLsbD 1 = false := by
  obtain ⟨made, ht, hn, hrw⟩ := h
  have hout := output_of_trace_append ht
  have hlen := (length_filterMap_accepted_le made).trans hn
  match hps : made.filterMap Call.accepted with
  | [] => exact .inl (by simpa [hps] using hout)
  | [p] =>
    have hp : p ∈ made.filterMap Call.accepted := by simp [hps]
    obtain ⟨c, hc, hacc⟩ := List.mem_filterMap.mp hp
    obtain ⟨_, _, _, rfl⟩ := Call.accepted_eq_some hacc
    exact .inr ⟨p, by simpa [hps] using hout, hrw _ hc⟩
  | _ :: _ :: _ => simp [hps] at hlen

/-- Settles O35: every instruction makes at most one write, and the payloads it can write have RW = 0. -/
theorem noReadPayload : Obligations.NoReadPayload := by
  intro i s t h
  have hw := exec_writes h
  refine ⟨hw.output_cases, fun id address p maxRetries r hmem => ?_⟩
  obtain ⟨made, ht, -, hrw⟩ := hw
  rw [ht] at hmem
  exact (List.mem_append.mp hmem).elim (fun hmade => .inr (hrw _ hmade)) .inl

end Sys2Proof.Machine

/-!
PROOFS. The byte transfer (40_byte_transfer.md): a PROCESS that fails is precise (R174).
-/

namespace Sys2Proof.Machine

variable {s t u : State} {st : Status}

/-! ## What a failure may leave -/

/-- The registers R174 speaks of, and the output, are those of s. -/
def Unaltered (s t : State) : Prop := SameRegisters s t ∧ output t = output s

/-- The one exception of R174: the raise was written and H_TICK or L_TICK entered, before the tick failed. -/
def RaisedWithoutTick (s t : State) : Prop :=
  t.cfg = s.cfg ∧ t.seq = { s.seq with sub := { s.seq.sub with pulseSent := true, waiting := false } } ∧
    (subState t.seq.sub = some .hTick ∨ subState t.seq.sub = some .lTick) ∧
    t.diag = { s.diag with lastPayload := pay true s } ∧ output t = output s ++ [pay true s]

/-- R174 for a step from s to t that returns st. -/
def FailsPrecisely (s : State) (st : Status) (t : State) : Prop :=
  (st.isTransport = true → Unaltered s t) ∧ (st = .timebaseFailure → Unaltered s t ∨ RaisedWithoutTick s t)

theorem Unaltered.refl (s : State) : Unaltered s s := ⟨⟨rfl, rfl, rfl⟩, rfl⟩

theorem Unaltered.trans (h : Unaltered s t) (k : Unaltered t u) : Unaltered s u := by
  obtain ⟨⟨hc, hq, hd⟩, ho⟩ := h
  obtain ⟨⟨kc, kq, kd⟩, ko⟩ := k
  exact ⟨⟨kc.trans hc, kq.trans hq, kd.trans hd⟩, ko.trans ho⟩

theorem RaisedWithoutTick.trans_unaltered (h : RaisedWithoutTick s t) (k : Unaltered t u) :
    RaisedWithoutTick s u := by
  obtain ⟨hc, hq, hsub, hd, ho⟩ := h
  obtain ⟨⟨kc, kq, kd⟩, ko⟩ := k
  exact ⟨kc.trans hc, kq.trans hq, by rwa [kq], kd.trans hd, ko.trans ho⟩

/-- The pending payload depends on the sequencer registers alone (R160, R162). -/
theorem pay_congr (en : Bool) (h : t.seq = s.seq) : pay en t = pay en s := by
  simp only [pay, nib, h]

theorem Unaltered.trans_raisedWithoutTick (h : Unaltered s t) (k : RaisedWithoutTick t u) :
    RaisedWithoutTick s u := by
  obtain ⟨⟨hc, hq, hd⟩, ho⟩ := h
  rw [RaisedWithoutTick, pay_congr true hq, hc, hq, hd, ho] at k
  exact k

namespace FailsPrecisely

theorem of_ok (s t : State) : FailsPrecisely s .ok t := ⟨nofun, nofun⟩

theorem of_unaltered (st : Status) (h : Unaltered s t) : FailsPrecisely s st t := ⟨fun _ => h, fun _ => .inl h⟩

theorem of_raisedWithoutTick (h : RaisedWithoutTick s t) : FailsPrecisely s .timebaseFailure t :=
  ⟨nofun, fun _ => .inr h⟩

theorem trans_unaltered (h : FailsPrecisely s st t) (k : Unaltered t u) : FailsPrecisely s st u :=
  ⟨fun hst => (h.1 hst).trans k, fun hst => (h.2 hst).imp (·.trans k) (·.trans_unaltered k)⟩

end FailsPrecisely

theorem Unaltered.trans_failsPrecisely (h : Unaltered s t) (k : FailsPrecisely t st u) : FailsPrecisely s st u :=
  ⟨fun hst => h.trans (k.1 hst), fun hst => (k.2 hst).imp h.trans h.trans_raisedWithoutTick⟩

/-! ## The external calls -/

theorem Call.accepted_refused {id : BitVec 16} {address : BitVec 7} {p : Byte} {maxRetries : Nat} {r : I2cResult}
    (h : r ≠ .ok) : (Call.i2cWrite id address p maxRetries r).accepted = none := by
  cases r with
  | ok => exact absurd rfl h
  | busy | invalidAddress | notResponding | malformed | other => rfl

/-- A timebase call alters nothing. -/
theorem afterTimebase_unaltered {c : Call} (hc : c.accepted = none) (s : State) :
    Unaltered s (afterTimebase c s) := by
  refine ⟨⟨rfl, rfl, rfl⟩, ?_⟩
  rw [output_of_trace_append (made := [c]) (afterTimebase_trace s c)]
  simp [hc]

/-- A refused write alters nothing (R93, R161). -/
theorem afterI2c_unaltered (hr : i2cEvent s ≠ .ok) (p : Byte) : Unaltered s (afterI2c p s) := by
  refine ⟨⟨rfl, rfl, rfl⟩, ?_⟩
  rw [output_of_trace_append (made := [_]) (afterI2c_trace s p)]
  simp [Call.accepted_refused hr]

/-- An accepted write puts out its payload (R161). -/
theorem written_output (hr : i2cEvent s = .ok) (p : Byte) : output (written s p) = output s ++ [p] := by
  rw [output_of_trace_append (s := s) (t := written s p) (made := [_]) (afterI2c_trace s p), hr]
  rfl

/-! ## The steps of a transfer -/

/-- Only SETUP has the first-pass bit (R44). -/
theorem firstPass_of_ne_setup {b : SubState} (h : subState s.seq.sub = some b) (hb : b ≠ .setup) :
    s.seq.sub.firstPass = false := by
  rw [subState_eq_some h]
  cases b with
  | setup => exact absurd rfl hb
  | settle | hRaise | hTick | hWait | lRaise | lTick | lWait => rfl

theorem tickStep_ok_or_unaltered (s : State) :
    (tickStep s).status = .ok ∨ ((tickStep s).status = .timebaseFailure ∧ Unaltered s (tickStep s).state) := by
  obtain ⟨k, -, h⟩ | ⟨-, h⟩ := tickStep_cases s <;> rw [h]
  · exact .inl rfl
  · exact .inr ⟨rfl, afterTimebase_unaltered rfl s⟩

theorem tickStep_failsPrecisely (s : State) : FailsPrecisely s (tickStep s).status (tickStep s).state := by
  obtain h | ⟨-, h⟩ := tickStep_ok_or_unaltered s
  · rw [h]; exact .of_ok ..
  · exact .of_unaltered _ h

/-- An accepted raise leaves H_TICK or L_TICK, outside SETUP (R165). -/
theorem raised_raisedWithoutTick (hf : s.seq.sub.firstPass = false) (hr : i2cEvent s = .ok) :
    RaisedWithoutTick s (raised s) := by
  refine ⟨rfl, rfl, ?_, rfl, written_output hr (pay true s)⟩
  cases hl : s.seq.sub.lowerBits <;> simp [subState, hf, hl]

theorem raiseStep_failsPrecisely (hf : s.seq.sub.firstPass = false) :
    FailsPrecisely s (raiseStep s).status (raiseStep s).state := by
  obtain ⟨hr, h⟩ | ⟨hr, -, h⟩ := raiseStep_cases s <;> rw [h]
  · obtain hok | ⟨hfail, hk⟩ := tickStep_ok_or_unaltered (raised s)
    · rw [hok]; exact .of_ok ..
    · rw [hfail]; exact .of_raisedWithoutTick ((raised_raisedWithoutTick hf hr).trans_unaltered hk)
  · exact .of_unaltered _ (afterI2c_unaltered hr _)

theorem waitCall_unaltered (s : State) : Unaltered s (afterTimebase (waitCall s) s) :=
  afterTimebase_unaltered rfl s

theorem afterFall_status (s : State) : (afterFall s).status = .ok := by
  obtain ⟨-, -, h⟩ | ⟨-, h⟩ := afterFall_cases s <;> rw [h]

theorem fallStep_failsPrecisely (s : State) : FailsPrecisely s (fallStep s).status (fallStep s).state := by
  have hwait := waitCall_unaltered s
  obtain ⟨-, h⟩ | ⟨e, -, ⟨-, h⟩ | ⟨-, -, h⟩ | ⟨-, hr, -, h⟩⟩ := fallStep_cases s <;> rw [h]
  · exact .of_unaltered _ hwait
  · exact .of_ok ..
  · rw [afterFall_status]; exact .of_ok ..
  · exact .of_unaltered _ (hwait.trans (afterI2c_unaltered hr _))

theorem settleStep_failsPrecisely {r : Ran} (hf : s.seq.sub.firstPass = false) (h : settleStep s = .ok r) :
    FailsPrecisely s r.status r.state := by
  have hwait := waitCall_unaltered s
  obtain ⟨-, h'⟩ | ⟨l, -, ⟨-, h'⟩ | ⟨e, -, ⟨-, h'⟩ | ⟨-, h'⟩⟩⟩ := settleStep_cases s <;> rw [h'] at h <;> cases h
  · exact .of_unaltered _ hwait
  · exact .of_ok ..
  · exact hwait.trans_failsPrecisely (raiseStep_failsPrecisely hf)

theorem sendByteStep_failsPrecisely {b : SubState} {r : Ran} (hf : s.seq.sub.firstPass = false)
    (h : sendByteStep b s = .ok r) : FailsPrecisely s r.status r.state := by
  cases b with
  | settle => exact settleStep_failsPrecisely hf h
  | setup => cases h
  | hRaise | lRaise => cases h; exact raiseStep_failsPrecisely hf
  | hTick | lTick => cases h; exact tickStep_failsPrecisely s
  | hWait | lWait => cases h; exact fallStep_failsPrecisely s

/-! ## The handlers -/

/-- A driven transfer fails precisely when its setup entry does: its end runs after a step that returned OK alone. -/
theorem drive_failsPrecisely {f : State → Except Fault (Status × State)} {g : State → State}
    (hf : ∀ {st u}, f s = .ok (st, u) → FailsPrecisely s st u) (h : drive f g s = .ok (st, u)) :
    FailsPrecisely s st u := by
  obtain ⟨-, h'⟩ | ⟨-, h'⟩ | ⟨b, hb, hne, ⟨e, -, h'⟩ | ⟨r, hr, h'⟩⟩ := drive_cases s f g <;> rw [h'] at h
  · cases h
  · exact hf h
  · cases h
  · split at h <;> cases h
    · exact .of_ok ..
    · exact sendByteStep_failsPrecisely (firstPass_of_ne_setup hb hne) hr

theorem runByte_failsPrecisely {b : Byte} (h : runByte b s = .ok (st, u)) : FailsPrecisely s st u :=
  drive_failsPrecisely (fun hs => by cases hs; exact .of_ok ..) h

/-- With the first-pass bit set a full byte is at its setup entry, which returns OK (R163), or at no sub-state. -/
theorem runByte_ok_of_firstPass {b : Byte} (hf : s.seq.sub.firstPass = true) (h : runByte b s = .ok (st, u)) :
    st = .ok := by
  unfold runByte at h
  obtain ⟨-, h'⟩ | ⟨-, h'⟩ | ⟨n, hn, hne, -⟩ := drive_cases s (fun s => .ok (.ok, setupByte b false s)) finalize
  · rw [h'] at h; cases h
  · rw [h'] at h; cases h; rfl
  · rw [firstPass_of_ne_setup hn hne] at hf; cases hf

/-- Outside the setup entry bootstrap step 5 leaves the configuration (R250). -/
theorem forceDisplayOff_of_not_firstPass (hf : s.seq.sub.firstPass = false) : forceDisplayOff s = s := by
  simp [forceDisplayOff, hf]

/-- Bootstrap step 5 clears the display flag in its setup entry alone, and that entry cannot fail (R250). -/
theorem runByte_forceDisplayOff_failsPrecisely {b : Byte} (h : runByte b (forceDisplayOff s) = .ok (st, u)) :
    FailsPrecisely s st u := by
  cases hf : s.seq.sub.firstPass with
  | false =>
    rw [forceDisplayOff_of_not_firstPass hf] at h
    exact runByte_failsPrecisely h
  | true =>
    have hf' : (forceDisplayOff s).seq.sub.firstPass = true := by simp [forceDisplayOff, hf]
    rw [runByte_ok_of_firstPass hf' h]
    exact .of_ok ..

theorem probeStep_failsPrecisely (h : probeStep s = .ok (st, u)) : FailsPrecisely s st u := by
  refine drive_failsPrecisely (fun {st u} hs => ?_) h
  obtain ⟨k, -, h'⟩ | ⟨-, h'⟩ := probeSetup_cases s probeByte <;> rw [h'] at hs <;> cases hs
  · exact .of_ok ..
  · exact .of_unaltered _ (afterTimebase_unaltered rfl s)

theorem bootstrapHandler_failsPrecisely (h : bootstrapHandler s = .ok (st, u)) : FailsPrecisely s st u := by
  obtain ⟨-, h'⟩ | ⟨-, -, -, b, h'⟩ | ⟨-, h'⟩ | ⟨-, h'⟩ | ⟨-, h'⟩ := bootstrapHandler_cases s <;> rw [h'] at h
  · exact probeStep_failsPrecisely h
  · exact runByte_failsPrecisely h
  · exact runByte_forceDisplayOff_failsPrecisely h
  · cases h; exact .of_ok ..
  · cases h

/-- The setup entry of a character returns OK or stops (R81, R296). -/
theorem printSetup_status (h : printSetup s = .ok (st, u)) : st = .ok := by
  unfold printSetup at h
  split at h <;> cases h
  rfl

theorem printHandler_failsPrecisely (h : printHandler s = .ok (st, u)) : FailsPrecisely s st u :=
  drive_failsPrecisely (fun hs => by rw [printSetup_status hs]; exact .of_ok ..) h

theorem backlightHandler_failsPrecisely (s : State) :
    FailsPrecisely s (backlightHandler s).1 (backlightHandler s).2 := by
  obtain ⟨-, h⟩ | ⟨hr, -, h⟩ := backlightHandler_cases s <;> rw [h]
  · exact .of_ok ..
  · exact .of_unaltered _ (afterI2c_unaltered hr _)

/-- Every handler fails precisely, before the accounting. -/
theorem handler_failsPrecisely (h : handler s = .ok (st, u)) : FailsPrecisely s st u := by
  obtain ⟨b, -, h'⟩ | ⟨-, h'⟩ | ⟨-, h'⟩ | ⟨-, h'⟩ | ⟨k, -, h'⟩ | ⟨-, h'⟩ := handler_cases s <;> rw [h'] at h
  · exact runByte_failsPrecisely h
  · exact bootstrapHandler_failsPrecisely h
  · exact printHandler_failsPrecisely h
  · have hb := backlightHandler_failsPrecisely s
    rwa [Except.ok.inj h] at hb
  · cases h
  · cases h; exact .of_ok ..

/-! ## PROCESS -/

/-- The accounting (R343) escalates, or keeps the status and writes the error registers alone. -/
theorem account_escalates_or_unaltered (st : Status) (s : State) :
    (account st s).1 = .maxConsecutiveErrors ∨ ((account st s).1 = st ∧ Unaltered s (account st s).2) := by
  obtain ⟨-, h⟩ | ⟨-, -, h⟩ | ⟨-, -, h⟩ | h := account_cases s st <;> rw [h]
  · exact .inr ⟨rfl, .refl s⟩
  · exact .inl rfl
  · exact .inr ⟨rfl, .refl s⟩
  · exact .inr ⟨rfl, .refl s⟩

/-- PROCESS fails precisely: its handler does, and the accounting of a failure it reports writes no other register. -/
theorem execProcess_failsPrecisely (h : exec .process s = .next t) : FailsPrecisely s t.port.status t := by
  obtain ⟨-, rfl⟩ | ⟨st, u, -, hu, rfl⟩ := execProcess_next s h
  · exact .of_unaltered _ (.refl s)
  · obtain hmax | ⟨hst, hk⟩ := account_escalates_or_unaltered st u
    · rw [answered_port, hmax]
      exact ⟨nofun, nofun⟩
    · rw [answered_port, hst]
      exact (handler_failsPrecisely hu).trans_unaltered hk

/-- Settles O36: the steps of a transfer and the handlers fail precisely, and so does PROCESS. -/
theorem failuresArePrecise : Obligations.FailuresArePrecise :=
  fun _ _ h => execProcess_failsPrecisely h

end Sys2Proof.Machine

/-!
PROOFS. PROCESS in Ready (O30; 41_sequencer.md section 1).
-/

namespace Sys2Proof.Machine

variable {s : State}

/-- With no command active no handler runs: the dispatch answers OK from the state itself (R202). -/
theorem handler_of_idle (h : s.seq.active = .idle) : handler s = .ok (.ok, s) := by
  simpa [h, cmdByte] using handler_cases s

/-- The end of a PROCESS whose handler answered OK: the answer OK, with both error registers cleared (R343, R344). -/
theorem endProcess_ok (s : State) : endProcess .ok s = .next (answered .ok 0 { s with err := ⟨.ok, 0⟩ }) := rfl

/-- Settles O30: in Ready the dispatch answers OK from the state itself, and the accounting clears the error registers. -/
theorem processInReady : Obligations.ProcessInReady := by
  intro s h
  obtain ⟨hi, ha⟩ := devState_ready.mp h
  rw [execProcess_of_handler s hi (handler_of_idle ha), endProcess_ok]

end Sys2Proof.Machine

/-!
PROOFS. The public operations: a refusal by the readiness check (O21), the DDRAM address (O38) and the BACKLIGHT handler (O47);
43_public_ops.md.
-/

namespace Sys2Proof.Machine

variable {s : State}

/-! ## A busy refusal (R280, R299) -/

/-- In Processing the readiness check answers DEVICE_BUSY, to a toggle where the build does not preempt (R280). -/
theorem readyCheck_of_processing {toggle : Bool} (h : devState s = .processing)
    (hp : toggle = true → s.build.preemptToggles = false) : readyCheck toggle s = .deviceBusy := by
  obtain ⟨hi, hidle, hinit⟩ := devState_processing.mp h
  have hpre : (toggle && s.build.preemptToggles) = false := by
    cases toggle with
    | false => rfl
    | true => exact hp rfl
  simp [readyCheck, hi, hinit, hidle, hpre]

/-- An operation without an argument check, refused (R299). -/
theorem operation_of_busy {toggle : Bool} (h : readyCheck toggle s = .deviceBusy) (write : State → State) (a : Active)
    (p : CmdParams) : operation toggle write a p s = .next (answered .deviceBusy 0 s) := by
  simp [operation, h, respond_eq]

/-- MOVE_CURSOR_TO_COORD is refused before its coordinate is looked at (R291, R347). -/
theorem execMoveCursorToCoord_of_busy (h : readyCheck false s = .deviceBusy) (line column : Byte) :
    execMoveCursorToCoord line column s = .next (answered .deviceBusy 0 s) := by
  simp [execMoveCursorToCoord, h, operation_of_busy h]

/-- PRINT is refused before its buffer and its length are looked at (R294, R347). -/
theorem execPrint_of_busy (h : readyCheck false s = .deviceBusy) (buf : Word) (len : BitVec 16) :
    execPrint buf len s = .next (answered .deviceBusy 0 s) := by
  simp [execPrint, h, operation_of_busy h]

/-- A public operation that the readiness check answers with DEVICE_BUSY returns it and writes nothing (R299). -/
theorem exec_of_busy {i : Instr} (hop : isOperation i = true) (h : readyCheck (isToggle i) s = .deviceBusy) :
    exec i s = .next (answered .deviceBusy 0 s) := by
  cases i with
  | clear | home | setDisplayOnOff | setCursorVisible | setBlinkingCursor | setBacklight | setEntryMode | moveRelative
  | shiftDisplay => unfold exec; exact operation_of_busy h _ _ _
  | moveCursorToCoord line column => exact execMoveCursorToCoord_of_busy h line column
  | print buf len => exact execPrint_of_busy h buf len
  | _ => cases hop

/-- Settles O21: the readiness check answers DEVICE_BUSY, and every operation makes it first. -/
theorem busyRefusalChangesNothing : Obligations.BusyRefusalChangesNothing :=
  fun _ _ hop hd hp => exec_of_busy hop (readyCheck_of_processing hd hp)

/-! ## The DDRAM address (R289, R290) -/

/-- The geometry as bounds on the line and the column (R289). -/
theorem geometryOk_iff {line column : Byte} : geometryOk line column s = true ↔
    line.toNat ≤ (if s.cfg.twoLines then 1 else 0) ∧ column.toNat ≤ (if s.cfg.twoLines then 39 else 79) := by
  cases h : s.cfg.twoLines <;> simp [geometryOk, h]

/-- Inside the geometry the 8-bit product and sum of R290 do not wrap. -/
theorem ddramAddr_toNat {line column : Byte} (h : geometryOk line column s = true) : (ddramAddr line column s).toNat =
    (if s.cfg.twoLines then line.toNat * 0x40 else 0) + column.toNat := by
  obtain ⟨hl, hc⟩ := geometryOk_iff.mp h
  unfold ddramAddr
  split at hl
  · next ht =>
    rw [if_pos ht] at hc
    simp only [ht, if_true, BitVec.toNat_add, BitVec.toNat_mul, BitVec.reduceToNat]
    omega
  · next ht => simp [ht]

/-- Inside the geometry the address is in one of the two DDRAM maps (R94, R290). -/
theorem ddramAddr_le {line column : Byte} (h : geometryOk line column s = true) :
    (ddramAddr line column s).toNat ≤ (if s.cfg.twoLines then 0x67 else 0x4F) := by
  obtain ⟨hl, hc⟩ := geometryOk_iff.mp h
  rw [ddramAddr_toNat h]
  split at hl
  · next ht => simp only [ht, if_true] at hc ⊢; omega
  · next ht => simp only [ht, Bool.false_eq_true, if_false] at hc ⊢; omega

/-- Or-ing the SET_DDRAM_ADDR bit to a 7-bit address adds it (R131). -/
theorem setDdramAddrBit_or_toNat {a : Byte} (h : a.toNat < 0x80) : (0x80 ||| a).toNat = 0x80 + a.toNat := by
  rw [BitVec.toNat_or]
  exact (Nat.two_pow_add_eq_or_of_lt (i := 7) h 1).symm

/-- Settles O38: by the bound on the address, its bit 7 is clear. -/
theorem ddramAddressFits : Obligations.DdramAddressFits := by
  intro s line column h
  have hle := ddramAddr_le h
  have hlt : (ddramAddr line column s).toNat < 0x80 := by split at hle <;> omega
  exact ⟨ddramAddr_toNat h, hle, setDdramAddrBit_or_toNat hlt⟩

/-! ## The BACKLIGHT handler (R298) -/

/-- The payload of the BACKLIGHT command, 0x08 or 0x00 (R123). -/
theorem backlightByte_eq (bl : Bool) : backlightByte bl = if bl then 0x08 else 0x00 := by
  cases bl <;> rfl

/-- With BACKLIGHT active the dispatch runs its handler, whatever the sub-state (R201). -/
theorem handler_of_backlight (h : s.seq.active = .backlight) : handler s = .ok (backlightHandler s) := by
  simp [handler, h, cmdByte]

/-- Settles O47: the handler's one write is accepted and finishes the command, or is refused and accounted for. -/
theorem processBacklight : Obligations.ProcessBacklight := by
  intro s hi ha p
  have hh := handler_of_backlight ha
  have hp : backlightByte s.cfg.backlight = p := backlightByte_eq _
  obtain ⟨hr, hw⟩ | ⟨hr, -, hw⟩ := backlightHandler_cases s
  · rw [hw, hp] at hh
    rw [execProcess_of_handler s hi hh, endProcess_ok]
    exact ⟨_, rfl, rfl, ⟨rfl, rfl, rfl, rfl, rfl⟩, rfl, fun _ => ⟨⟨rfl, rfl, rfl⟩, rfl, rfl, rfl⟩, fun h => absurd hr h⟩
  · rw [hw, hp] at hh
    obtain ⟨t, ht, href⟩ := endProcess_refused (u := afterI2c p s) (p := p) (made := []) hr ⟨rfl, rfl, rfl⟩ rfl
      ⟨rfl, rfl, rfl, rfl, rfl⟩ (afterI2c_trace s p)
    have ⟨hcfg, _, hu, htr, _⟩ := href
    exact ⟨t, (execProcess_of_handler s hi hh).trans ht, hcfg, hu, htr, fun h => absurd h hr, fun _ => href⟩

end Sys2Proof.Machine

/-!
PROOFS. Reset and NotInitialized (70_reset_and_hazards.md): the registers at power-on (O16) and what acts before INIT (O20).
-/

namespace Sys2Proof.Machine

variable {s : State}

/-! ## Power-on (R380) -/

/-- Settles O16: the reset values of R60 and R111, and a cleared `initialized` is NotInitialized. -/
theorem powerOnRegisters : Obligations.PowerOnRegisters :=
  ⟨rfl, rfl, rfl, rfl, rfl, devState_notInitialized.mpr rfl⟩

/-! ## A public operation the readiness check refuses, with whatever status (R280, R281) -/

/-- An operation without an argument check, refused. -/
theorem operation_of_not_ready {toggle : Bool} (h : readyCheck toggle s ≠ .ok) (write : State → State) (a : Active)
    (p : CmdParams) : operation toggle write a p s = .next (answered (readyCheck toggle s) 0 s) := by
  simp [operation, h, respond_eq]

/-- MOVE_CURSOR_TO_COORD is refused before its coordinate is looked at (R291, R347). -/
theorem execMoveCursorToCoord_of_not_ready (h : readyCheck false s ≠ .ok) (line column : Byte) :
    execMoveCursorToCoord line column s = .next (answered (readyCheck false s) 0 s) := by
  simp [execMoveCursorToCoord, h, operation_of_not_ready h]

/-- PRINT is refused before its buffer and its length are looked at (R294, R347). -/
theorem execPrint_of_not_ready (h : readyCheck false s ≠ .ok) (buf : Word) (len : BitVec 16) :
    execPrint buf len s = .next (answered (readyCheck false s) 0 s) := by
  simp [execPrint, h, operation_of_not_ready h]

/-- A public operation that the readiness check refuses returns the check's status and writes nothing. -/
theorem exec_of_not_ready {i : Instr} (hop : isOperation i = true) (h : readyCheck (isToggle i) s ≠ .ok) :
    exec i s = .next (answered (readyCheck (isToggle i) s) 0 s) := by
  cases i with
  | clear | home | setDisplayOnOff | setCursorVisible | setBlinkingCursor | setBacklight | setEntryMode | moveRelative
  | shiftDisplay => unfold exec; exact operation_of_not_ready h _ _ _
  | moveCursorToCoord line column => exact execMoveCursorToCoord_of_not_ready h line column
  | print buf len => exact execPrint_of_not_ready h buf len
  | _ => cases hop

/-! ## NotInitialized (R382) -/

/-- Before INIT the readiness check answers NOT_INITIALIZED, to a toggle as to any other operation (R280). -/
theorem readyCheck_of_notInitialized (hi : s.seq.initialized = false) (toggle : Bool) :
    readyCheck toggle s = .notInitialized := by
  simp [readyCheck, hi]

/-- Before INIT a public operation is refused (R280). -/
theorem exec_operation_of_notInitialized {i : Instr} (hi : s.seq.initialized = false) (hop : isOperation i = true) :
    exec i s = .next (answered .notInitialized 0 s) := by
  have hr := readyCheck_of_notInitialized hi (isToggle i)
  rw [exec_of_not_ready hop (by rw [hr]; decide), hr]

/-- Before INIT no handler runs (R200). -/
theorem execProcess_of_notInitialized (hi : s.seq.initialized = false) :
    exec .process s = .next (answered .notInitialized 0 s) := by
  simp [exec, execProcess, hi, respond_eq]

/-- Before INIT, INIT looks at its configuration alone (R240, R347). -/
theorem execInit_of_notInitialized (hi : s.seq.initialized = false) (a : DisplayConfig) : exec (.init a) s =
    .next (if configLegal a then answered .ok 0 (startBootstrap a s) else answered .invalidArgument 0 s) := by
  cases hc : configLegal a <;> simp [exec, execInit, hi, hc, respond_eq]

/-- A transaction whose word the decoder refuses latches its arguments and is answered INVALID_ARGUMENT (R115). -/
theorem step_of_undecoded {t : Txn} {rest : List Input} (h : s.inputs = .run (.host t) :: rest)
    (hd : decode (.host t) = none) :
    step s = .next (answered .invalidArgument 0 (latchArgs (.host t) (s.withInputs rest))) := by
  simp [step, stepInput, h, takeInput, runCode, hd, undecoded, respond_eq]

/-- Settles O20: PROCESS and the operations test `initialized` first, and no other transaction answers NOT_INITIALIZED. -/
theorem notInitializedRefuses : Obligations.NotInitializedRefuses := by
  refine ⟨fun s t rest _ hin hd => ⟨_, step_of_undecoded hin hd, rfl⟩, fun i s hi => ⟨?_, ?_⟩⟩
  · rintro (rfl | hop)
    · exact execProcess_of_notInitialized hi
    · exact exec_operation_of_notInitialized hi hop
  · rintro (⟨a, rfl⟩ | rfl | rfl | rfl)
    · refine ⟨_, execInit_of_notInitialized hi a, ?_⟩
      split <;> exact nofun
    all_goals exact ⟨_, rfl, nofun⟩

end Sys2Proof.Machine

/-!
PROOFS. The encodings (30_encoding.md sections 1 to 3): the decoder and the encoder are inverse on the bits R113 assigns (O1, O2),
and which words decode to nothing (O4, O5) or to what (O6).
-/

namespace Sys2Proof.Machine

/-! ## Fields of a word -/

/-- A flag as a byte has bit 0 alone. -/
theorem flagByte_getLsbD (b : Bool) (i : Nat) : (flagByte b).getLsbD i = (decide (i = 0) && b) := by
  cases b <;> simp [flagByte]

theorem flagByte_getElem (b : Bool) (i : Nat) (h : i < 8) : (flagByte b)[i] = (decide (i = 0) && b) :=
  flagByte_getLsbD b i

/-- A flag is read back from its word. -/
theorem flagWord_getLsbD_zero (b : Bool) : ((flagByte b).setWidth 32).getLsbD 0 = b := by
  simp [flagByte_getElem]

/-- The flag in bit 0 of a word is the word in that bit. -/
theorem flagWord_of_getLsbD_zero (w : Word) : (flagByte (w.getLsbD 0)).setWidth 32 = w &&& 0x1 := by
  ext i hi
  rcases i with _ | i <;> simp [flagByte_getLsbD, flagByte_getElem]

/-- A field at the bottom of a wider word is read back. -/
theorem extractLsb'_zero_setWidth {n w : Nat} (x : BitVec n) (h : n ≤ w) : (x.setWidth w).extractLsb' 0 n = x := by
  ext i hi
  simp [hi, hi.trans_le h]

/-- A field at the bottom of a word is the word in the field's bits. -/
theorem setWidth_extractLsb'_zero {w n : Nat} (x : BitVec w) :
    (x.extractLsb' 0 n).setWidth w = x &&& (BitVec.allOnes n).setWidth w := by
  ext i hi
  simp [hi, Bool.and_comm]

/-- Of two fields side by side the lower is read back. -/
theorem extractLsb'_lower_field {n k w : Nat} (x : BitVec n) (y : BitVec k) (h : n ≤ w) :
    (x.setWidth w ||| y.setWidth w <<< n).extractLsb' 0 n = x := by
  ext i hi
  simp [hi, hi.trans_le h]

/-- Of two fields side by side the upper is read back. -/
theorem extractLsb'_upper_field {n k w : Nat} (x : BitVec n) (y : BitVec k) (h : n + k ≤ w) :
    (x.setWidth w ||| y.setWidth w <<< n).extractLsb' n k = y := by
  ext i hi
  have hw : n + i < w := by omega
  simp [hw, BitVec.getLsbD_eq_getElem hi]

/-- Two fields read side by side are the word in their bits. -/
theorem setWidth_extractLsb'_or_shift {w n k : Nat} (x : BitVec w) :
    (x.extractLsb' 0 n).setWidth w ||| (x.extractLsb' n k).setWidth w <<< n =
      x &&& (BitVec.allOnes (n + k)).setWidth w := by
  ext i hi
  by_cases hn : i < n
  · simp [hn, hi, Nat.lt_add_right k hn]
  · obtain ⟨j, rfl⟩ := Nat.exists_eq_add_of_le (Nat.not_lt.mp hn)
    simp [hi, Bool.and_comm]

/-! ## The argument words of INIT (R113) -/

theorem initArg0_i2cAddr (a : DisplayConfig) : (initArg0 a).extractLsb' 0 7 = a.i2cAddr := by
  ext i hi
  interval_cases i <;> simp [initArg0]

theorem initArg0_entryMode (a : DisplayConfig) : (initArg0 a).extractLsb' 9 2 = a.entryMode := by
  ext i hi
  interval_cases i <;> simp [initArg0, flagByte_getElem]

/-- The ten fields are read back from their words. -/
theorem initArgs_initArg (a : DisplayConfig) : initArgs (initArg0 a) (initArg1 a) = a := by
  have haddr := initArg0_i2cAddr a
  have hmode := initArg0_entryMode a
  have htb := extractLsb'_lower_field (w := 32) a.tbId a.i2cId (by decide)
  have hi2c := extractLsb'_upper_field (w := 32) a.tbId a.i2cId (by decide)
  simp only [initArgs, initArg1, haddr, hmode, htb, hi2c]
  simp [initArg0, flagByte_getElem]

/-- ARG0 is built again from its fields, bit by bit. -/
theorem initArg0_initArgs (arg0 arg1 : Word) : initArg0 (initArgs arg0 arg1) = arg0 &&& 0x7FFF := by
  ext i hi
  interval_cases i <;> simp [initArgs, initArg0, flagByte_getElem]

/-- ARG1 is built again from its two ids. -/
theorem initArg1_initArgs (arg0 arg1 : Word) : initArg1 (initArgs arg0 arg1) = arg1 &&& 0xFFFFFFFF :=
  setWidth_extractLsb'_or_shift arg1

/-! ## What an encoding decodes to -/

theorem Direction.ofBit_bit (d : Direction) : .ofBit d.bit = d := by
  cases d <;> rfl

theorem Direction.bit_ofBit (b : Bool) : (Direction.ofBit b).bit = b := by
  cases b <;> rfl

theorem decodeHdInstruction_entryModeByte (id s : Bool) :
    decodeHdInstruction (entryModeByte id s) = some (.hdEntryModeSet id s) := by
  revert id s; decide

theorem decodeHdInstruction_displayControlByte (d c b : Bool) :
    decodeHdInstruction (displayControlByte d c b) = some (.hdDisplayControl d c b) := by
  revert d c b; decide

theorem decodeHdInstruction_cursorShiftByte (sc rl : Bool) :
    decodeHdInstruction (cursorShiftByte sc rl) = some (.hdCursorShift sc rl) := by
  revert sc rl; decide

theorem decodeHdInstruction_functionSetByte (dl n f : Bool) :
    decodeHdInstruction (functionSetByte dl n f) = some (.hdFunctionSet dl n f) := by
  revert dl n f; decide

theorem decodeHdInstruction_setDdramAddrByte (addr : BitVec 7) :
    decodeHdInstruction (setDdramAddrByte addr) = some (.hdSetDdramAddr addr) := by
  revert addr; decide

theorem decodeNibblePayload_payloadByte (n : Nibble) (bl en rs : Bool) :
    decodeNibblePayload (payloadByte n bl en rs) = some (if en then .payRaise n bl rs else .payFall n bl rs) := by
  revert n bl en rs; decide

theorem decodeProbePayload_payloadByte (bl en : Bool) :
    decodeProbePayload (payloadByte 0x3 bl en false) = some (if en then .payProbeRaise bl else .payProbeFall bl) := by
  revert bl en; decide

theorem decodeBacklightPayload_backlightByte (bl : Bool) :
    decodeBacklightPayload (backlightByte bl) = some (.payBacklight bl) := by
  revert bl; decide

/-- Settles O1: each field of a transaction, a byte or a payload is read back from its place. -/
theorem decodeOfEncode : Obligations.DecodeOfEncode := by
  intro i
  cases i with
  | reset | process | getState | readDiag | clear | home | hdClear | hdHome | hdData => rfl
  | init a => simp [encode, decode, decodeHost, initArgs_initArg]
  | setDisplayOnOff b | setCursorVisible b | setBlinkingCursor b | setBacklight b =>
    simp only [encode, flagTxn, decode, decodeHost, BitVec.reduceToNat, flagWord_getLsbD_zero]
  | moveRelative d | shiftDisplay d =>
    simp only [encode, flagTxn, decode, decodeHost, BitVec.reduceToNat, flagWord_getLsbD_zero, Direction.ofBit_bit]
  | setEntryMode m =>
    simp (disch := decide) only [encode, decode, decodeHost, BitVec.reduceToNat, extractLsb'_zero_setWidth]
  | moveCursorToCoord line column =>
    simp (disch := decide) only [encode, decode, decodeHost, BitVec.reduceToNat, extractLsb'_lower_field,
      extractLsb'_upper_field]
  | print buf len =>
    simp (disch := decide) only [encode, decode, decodeHost, BitVec.reduceToNat, extractLsb'_zero_setWidth]
  | hdEntryModeSet id s => exact decodeHdInstruction_entryModeByte id s
  | hdDisplayControl d c b => exact decodeHdInstruction_displayControlByte d c b
  | hdCursorShift sc rl => exact decodeHdInstruction_cursorShiftByte sc rl
  | hdFunctionSet dl n f => exact decodeHdInstruction_functionSetByte dl n f
  | hdSetDdramAddr addr => exact decodeHdInstruction_setDdramAddrByte addr
  | payRaise n bl rs => exact decodeNibblePayload_payloadByte n bl true rs
  | payFall n bl rs => exact decodeNibblePayload_payloadByte n bl false rs
  | payBacklight bl => exact decodeBacklightPayload_backlightByte bl
  | payProbeRaise bl => exact decodeProbePayload_payloadByte bl true
  | payProbeFall bl => exact decodeProbePayload_payloadByte bl false

/-! ## What a word decodes to encodes the word again -/

/-- A transaction's instruction has its encoding in the bits R113 assigns: by cases on the command. -/
theorem encode_of_decodeHost {t : Txn} {i : Instr} (h : decodeHost t = some i) :
    encode i = .host (assignedBits t) := by
  obtain ⟨cmd, arg0, arg1⟩ := t
  have hflag := flagWord_of_getLsbD_zero arg0
  have hmode : (arg0.extractLsb' 0 2).setWidth 32 = arg0 &&& 0x3 := setWidth_extractLsb'_zero arg0
  have hcoord : (arg0.extractLsb' 0 8).setWidth 32 ||| (arg0.extractLsb' 8 8).setWidth 32 <<< 8 = arg0 &&& 0xFFFF :=
    setWidth_extractLsb'_or_shift arg0
  have hlen : (arg1.extractLsb' 0 16).setWidth 32 = arg1 &&& 0xFFFF := setWidth_extractLsb'_zero arg1
  have hbuf : arg0 &&& 0xFFFFFFFF#32 = arg0 := BitVec.and_allOnes
  unfold decodeHost at h
  split at h <;> cases h
  all_goals
    next hcmd =>
    obtain rfl := (congrArg (BitVec.ofNat 8) hcmd).symm.trans ((BitVec.ofNat_toNat 8 cmd).trans (BitVec.setWidth_eq cmd))
    simp only [encode, flagTxn, assignedBits, argMask0, argMask1, BitVec.reduceToNat, BitVec.ofNat_eq_ofNat,
      BitVec.and_zero, initArg0_initArgs, initArg1_initArgs, Direction.bit_ofBit, hflag, hmode, hcoord, hlen, hbuf]

theorem encode_of_decodeHdInstruction : ∀ b, ∀ i ∈ decodeHdInstruction b, encode i = .hdInstruction b := by decide

theorem encode_of_decodeNibblePayload : ∀ p, ∀ i ∈ decodeNibblePayload p, encode i = .nibblePayload p := by decide

theorem encode_of_decodeProbePayload : ∀ p, ∀ i ∈ decodeProbePayload p, encode i = .probePayload p := by decide

theorem encode_of_decodeBacklightPayload : ∀ p, ∀ i ∈ decodeBacklightPayload p, encode i = .backlightPayload p := by
  decide

/-- Settles O2: a transaction by the rows of the command-code map, a byte or payload by its own table. -/
theorem encodeOfDecoded : Obligations.EncodeOfDecoded := by
  refine ⟨fun t i h => encode_of_decodeHost h, fun c i hne h => ?_⟩
  cases c with
  | host t => exact absurd rfl (hne t)
  | hdInstruction b => exact encode_of_decodeHdInstruction b i h
  | hdDataByte b => cases h; rfl
  | nibblePayload p => exact encode_of_decodeNibblePayload p i h
  | probePayload p => exact encode_of_decodeProbePayload p i h
  | backlightPayload p => exact encode_of_decodeBacklightPayload p i h

/-! ## The words that decode to nothing, and words written out -/

/-- Settles O4: by cases on the rows of the command-code map. -/
theorem unassignedCommandsAreTheRest : Obligations.UnassignedCommandsAreTheRest := by
  intro t
  have hdecode : decode (.host t) = decodeHost t := rfl
  rw [hdecode]
  unfold decodeHost
  split
  case h_17 =>
    simp only [true_iff, imp_false] at *
    omega
  all_goals
    simp only [reduceCtorEq, false_iff]
    omega

/-- Settles O5: by running the decoder on every byte. -/
theorem forbiddenEncodingsRefused : Obligations.ForbiddenEncodingsRefused := by
  unfold Obligations.ForbiddenEncodingsRefused
  decide

/-- Settles O6: by running the decoder. -/
theorem specWordsDecode : Obligations.SpecWordsDecode := by
  unfold Obligations.SpecWordsDecode
  decide

end Sys2Proof.Machine

/-!
PROOFS. The payloads of a transfer (30_encoding.md sections 2 and 3, 40_byte_transfer.md section 4): what the display latches from
them and what they read back as (O7).
-/

namespace Sys2Proof.Machine

/-! ## The fields of a payload -/

theorem payloadByte_toNat (n : Nibble) (bl en rs : Bool) :
    (payloadByte n bl en rs).toNat = 16 * n.toNat + 8 * bl.toNat + 4 * en.toNat + rs.toNat := by
  revert n bl en rs; decide

@[simp] theorem payloadByte_en (n : Nibble) (bl en rs : Bool) : (payloadByte n bl en rs)[2] = en := by
  revert n bl en rs; decide

@[simp] theorem payloadByte_rs (n : Nibble) (bl en rs : Bool) : (payloadByte n bl en rs)[0] = rs := by
  revert n bl en rs; decide

@[simp] theorem payloadByte_nib (n : Nibble) (bl en rs : Bool) : (payloadByte n bl en rs).extractLsb' 4 4 = n := by
  revert n bl en rs; decide

/-- A byte is its high nibble and its low one. -/
theorem nibbles_append (b : Byte) : b.extractLsb' 4 4 ++ b.extractLsb' 0 4 = b := by
  revert b; decide

/-! ## Reading back (R134) -/

/-- The falls of a byte's two pairs come after their raises (R175, R363). -/
theorem latchedFrom_bytePayloads (prev b : Byte) (bl rs : Bool) :
    latchedFrom prev (bytePayloads b bl rs) = [(b.extractLsb' 4 4, rs), (b.extractLsb' 0 4, rs)] := by
  simp [bytePayloads, latchedFrom]

/-- A byte's four payloads read back as the byte, before whatever follows. -/
theorem reconstruct_bytePayloads_append (b : Byte) (bl rs : Bool) (cs : List Code) :
    reconstruct ((bytePayloads b bl rs).map .nibblePayload ++ cs) = .byte b :: reconstruct cs := by
  simp [reconstruct, bytePayloads, pairPayload, pairNibbles, joinNibbles, nibbles_append]

/-- A probe's two payloads read back as its one nibble (R247). -/
theorem reconstruct_probePayloads_append (bl : Bool) (cs : List Code) :
    reconstruct ((probePayloads bl).map .probePayload ++ cs) = .probe 0x3 :: reconstruct cs := by
  simp [reconstruct, probePayloads, pairPayload, pairNibbles, joinNibbles]

/-- A backlight payload is dropped. -/
theorem reconstruct_append_backlightPayload (p : Byte) (cs ds : List Code) :
    reconstruct (cs ++ .backlightPayload p :: ds) = reconstruct (cs ++ ds) := by
  simp [reconstruct, List.filterMap_cons, pairPayload]

/-- Settles O7: a payload's fields are read back from their bits, and the falls pair with their raises. -/
theorem bytePayloadsLatchTheByte : Obligations.BytePayloadsLatchTheByte :=
  ⟨payloadByte_toNat, fun prev b bl rs => ⟨latchedFrom_bytePayloads prev b bl rs,
    reconstruct_bytePayloads_append b bl rs, reconstruct_probePayloads_append bl,
    reconstruct_append_backlightPayload prev⟩⟩

end Sys2Proof.Machine

/-!
PROOFS. PROCESS by the sub-state (41_sequencer.md section 1, 40_byte_transfer.md section 1): what the handler of a command that
drives a transfer does at its setup entry and at each later step. The statements about PROCESS cite these lemmas.
-/

namespace Sys2Proof.Machine

variable {s : State}

/-! ## The dispatch (R201) -/

theorem handler_of_cmdByte {b : Byte} (h : cmdByte s.seq.active s = some b) : handler s = runByte b s := by
  simp [handler, h]

theorem handler_of_init (h : s.seq.active = .init) : handler s = bootstrapHandler s := by
  simp [handler, h, cmdByte]

theorem handler_of_print (h : s.seq.active = .print) : handler s = printHandler s := by
  simp [handler, h, cmdByte]

theorem handler_of_unassigned {k : Fin 5} (h : s.seq.active = .unassigned k) :
    handler s = .error .activeUnassigned := by
  simp [handler, h, cmdByte]

/-- Which commands have a byte (R204). -/
theorem cmdByte_isSome_iff {a : Active} : (cmdByte a s).isSome = true ↔
    a ≠ .idle ∧ a ≠ .init ∧ a ≠ .backlight ∧ a ≠ .print ∧ ∀ k, a ≠ .unassigned k := by
  cases a <;> simp [cmdByte]

/-! ## The end of a transfer -/

/-- What the handler of the active command does when its transfer is complete (R203, R297). -/
def transferEnd (a : Active) (s : State) : State := if a = .print then printNext s else finalize s

theorem transferEnd_print : transferEnd .print = printNext := rfl

theorem transferEnd_of_ne_print {a : Active} (h : a ≠ .print) : transferEnd a = finalize := by
  funext s
  exact if_neg h

/-- Outside a setup entry the bootstrap's stages before the last differ in their setup entries alone (R242). -/
theorem bootstrapHandler_eq_drive (hle : s.seq.subStep.toNat ≤ 7) (hf : forceDisplayOff s = s) :
    ∃ f, bootstrapHandler s = drive f finalize s := by
  rcases bootstrapHandler_cases s with ⟨-, h⟩ | ⟨-, -, -, b, h⟩ | ⟨-, h⟩ | ⟨h8, -⟩ | ⟨h9, -⟩
  · exact ⟨_, h⟩
  · exact ⟨_, h⟩
  · rw [hf] at h
    exact ⟨_, h⟩
  · omega
  · omega

/-- Outside a setup entry the handlers of a transfer differ in its end alone. -/
theorem handler_eq_drive (ht : Transfers s) (hf : forceDisplayOff s = s) :
    ∃ f, handler s = drive f (transferEnd s.seq.active) s := by
  obtain h | h | ⟨h, hle⟩ := ht
  · obtain ⟨b, hb⟩ := Option.isSome_iff_exists.mp h
    rw [transferEnd_of_ne_print (cmdByte_isSome_iff.mp h).2.2.2.1]
    exact ⟨_, handler_of_cmdByte hb⟩
  · rw [h]
    exact ⟨_, handler_of_print h⟩
  · rw [handler_of_init h, h]
    exact bootstrapHandler_eq_drive hle hf

/-- A combination of the sub-state bits that R44 does not list stops every handler of a transfer. -/
theorem drive_of_no_subState {f : State → Except Fault (Status × State)} {g : State → State}
    (h : subState s.seq.sub = none) : drive f g s = .error .subStateUnreachable := by
  simp [drive, h]

/-- At a later step the handler runs one `send_byte_step` and, when the transfer is complete, its end. -/
theorem handler_of_sendByteStep {b : SubState} {r : Ran} (ht : Transfers s) (hb : subState s.seq.sub = some b)
    (hne : b ≠ .setup) (hr : sendByteStep b s = .ok r) : handler s = .ok
      (if r.status = .ok then (.ok, if r.done then transferEnd s.seq.active r.state else r.state)
      else (r.status, r.state)) := by
  obtain ⟨f, hf⟩ := handler_eq_drive ht (forceDisplayOff_of_not_firstPass (firstPass_of_ne_setup hb hne))
  rw [hf, drive_send s hb hne hr]

/-- A handler that answers at a later step ran one `send_byte_step`, and the end of the transfer where it is complete. -/
theorem handler_later_step {b : SubState} {st : Status} {u : State} (ht : Transfers s)
    (hb : subState s.seq.sub = some b) (hne : b ≠ .setup) (hu : handler s = .ok (st, u)) :
    ∃ r, sendByteStep b s = .ok r ∧ st = r.status ∧
      u = if r.status = .ok ∧ r.done = true then transferEnd s.seq.active r.state else r.state := by
  obtain ⟨f, hf⟩ := handler_eq_drive ht (forceDisplayOff_of_not_firstPass (firstPass_of_ne_setup hb hne))
  rw [hf] at hu
  cases hr : sendByteStep b s with
  | error e =>
    obtain ⟨hn, -⟩ | ⟨hs, -⟩ | ⟨b', hb', -, ⟨e, -, h⟩ | ⟨r, hr', -⟩⟩ := drive_cases s f (transferEnd s.seq.active)
    · cases hb.symm.trans hn
    · rw [hs] at hb
      cases hb
      exact absurd rfl hne
    · cases h.symm.trans hu
    · obtain rfl := Option.some.inj (hb.symm.trans hb')
      cases hr.symm.trans hr'
  | ok r =>
    rw [drive_send s hb hne hr] at hu
    refine ⟨r, rfl, ?_⟩
    by_cases hs : r.status = .ok <;> simp_all

/-- A PROCESS whose step leaves the transfer incomplete. -/
theorem execProcess_of_not_done {b : SubState} {r : Ran} (hi : s.seq.initialized = true) (ht : Transfers s)
    (hb : subState s.seq.sub = some b) (hne : b ≠ .setup) (hr : sendByteStep b s = .ok r) (hd : r.done = false) :
    exec .process s = endProcess r.status r.state := by
  refine execProcess_of_handler s hi ((handler_of_sendByteStep ht hb hne hr).trans ?_)
  by_cases hs : r.status = .ok <;> simp [hs, hd]

/-- A PROCESS whose step completes the transfer. -/
theorem execProcess_of_done {b : SubState} {r : Ran} (hi : s.seq.initialized = true) (ht : Transfers s)
    (hb : subState s.seq.sub = some b) (hne : b ≠ .setup) (hr : sendByteStep b s = .ok r) (hs : r.status = .ok)
    (hd : r.done = true) : exec .process s = endProcess .ok (transferEnd s.seq.active r.state) := by
  refine execProcess_of_handler s hi ((handler_of_sendByteStep ht hb hne hr).trans ?_)
  simp [hs, hd]

/-! ## The setup entries -/

/-- The setup entry of a single-byte command (R203). -/
theorem runByte_of_setup (b : Byte) (h : s.seq.sub = .setup) : runByte b s = .ok (.ok, setupByte b false s) :=
  drive_setup s (congrArg subState h)

/-- The setup entry of a probe (R244). -/
theorem probeStep_of_setup (h : s.seq.sub = .setup) : probeStep s = .ok (probeSetup probeByte s) :=
  drive_setup s (congrArg subState h)

/-- The setup entry of a character (R296). -/
theorem printHandler_of_setup (h : s.seq.sub = .setup) : printHandler s = printSetup s :=
  drive_setup s (congrArg subState h)

/-- A byte the platform admits is taken up with RS = 1 (R296). -/
theorem printSetup_of_admitted {c : Byte} (h : memGet s.mem (fetchAddr s).toNat = some c) : printSetup s =
    .ok (.ok, setupByte c true (s.withEnv { s.env with trace := .memRead (fetchAddr s) c :: s.env.trace })) := by
  simp [printSetup, memRead, h]

/-- A byte that is not admitted stops PROCESS (R81). -/
theorem printSetup_of_not_admitted (h : memGet s.mem (fetchAddr s).toNat = none) :
    printSetup s = .error .hostReadNotAdmitted := by
  simp [printSetup, memRead, h]

theorem forceDisplayOff_of_setup (h : s.seq.sub = .setup) :
    forceDisplayOff s = s.withCfg { s.cfg with displayEnabled := false } := by
  simp [forceDisplayOff, h, SubBits.setup]

/-- The stages of the probes (R244). -/
theorem bootstrapHandler_of_probe (h : s.seq.subStep.toNat ≤ 2) : bootstrapHandler s = probeStep s := by
  rcases bootstrapHandler_cases s with ⟨-, h'⟩ | ⟨-, h3, -⟩ | ⟨h5, -⟩ | ⟨h8, -⟩ | ⟨h9, -⟩
  · exact h'
  all_goals omega

/-- The last stage (R253). -/
theorem bootstrapHandler_of_last (h : s.seq.subStep.toNat = 8) : bootstrapHandler s = .ok (.ok, finish s) := by
  rcases bootstrapHandler_cases s with ⟨h2, -⟩ | ⟨-, -, h7, -⟩ | ⟨h5, -⟩ | ⟨-, h'⟩ | ⟨h9, -⟩
  case inr.inr.inr.inl => exact h'
  all_goals omega

/-- No stage (R48). -/
theorem bootstrapHandler_of_out_of_range (h : 9 ≤ s.seq.subStep.toNat) :
    bootstrapHandler s = .error .subStepOutOfRange := by
  rcases bootstrapHandler_cases s with ⟨h2, -⟩ | ⟨-, -, h7, -⟩ | ⟨h5, -⟩ | ⟨h8, -⟩ | ⟨-, h'⟩
  case inr.inr.inr.inr => exact h'
  all_goals omega

/-- The byte of a bootstrap stage that sends a full one (R248 to R252). -/
def bootstrapByte (s : State) : Byte :=
  if s.seq.subStep = 3 then select4Byte
  else if s.seq.subStep = 4 then functionSetCmd s
  else if s.seq.subStep = 5 then displayControlByte false s.cfg.cursorVisible s.cfg.cursorBlink
  else if s.seq.subStep = 6 then clearByte
  else entryModeCmd s

/-- The configuration at the setup entry of a bootstrap stage: step 5 clears the display flag (R250). -/
def bootstrapCfg (s : State) : DisplayConfig :=
  if s.seq.subStep = 5 then { s.cfg with displayEnabled := false } else s.cfg

/-- The setup entry of a bootstrap stage that sends a full byte (R248 to R252). -/
theorem bootstrapHandler_of_byte (hs : s.seq.sub = .setup) (h3 : 3 ≤ s.seq.subStep.toNat)
    (h7 : s.seq.subStep.toNat ≤ 7) :
    bootstrapHandler s = .ok (.ok, setupByte (bootstrapByte s) false (s.withCfg (bootstrapCfg s))) := by
  have hcases : s.seq.subStep = 3 ∨ s.seq.subStep = 4 ∨ s.seq.subStep = 5 ∨ s.seq.subStep = 6 ∨ s.seq.subStep = 7 := by
    bv_omega
  obtain h | h | h | h | h := hcases
  case inr.inr.inl =>
    have hoff : bootstrapHandler s = runByte (displayControlsCmd (forceDisplayOff s)) (forceDisplayOff s) := by
      simp only [bootstrapHandler, h, BitVec.reduceToNat]
    have hsub : (forceDisplayOff s).seq.sub = .setup := by
      rw [forceDisplayOff_of_setup hs]
      exact hs
    rw [hoff, runByte_of_setup _ hsub, forceDisplayOff_of_setup hs]
    simp [bootstrapByte, bootstrapCfg, displayControlsCmd, h]
  all_goals
    simp only [bootstrapHandler, h, BitVec.reduceToNat]
    rw [runByte_of_setup _ hs]
    simp [bootstrapByte, bootstrapCfg, h]
    rfl

end Sys2Proof.Machine

/-!
PROOFS. The invariants between transactions (10_state.md section 5): they hold at reset (O58), every step keeps them (O59), and
they exclude every stop of PROCESS but the read of a character that is not admitted (O60).
-/

namespace Sys2Proof.Machine

variable {s t u : State}

/-! ## The invariants under the named updates -/

/-- The invariants do not look at the diagnostic registers, the port or the external services. -/
theorem Inv.congr (h : Inv s) (hb : t.build = s.build) (hc : t.cfg = s.cfg) (hq : t.seq = s.seq) (he : t.err = s.err)
    (hm : t.mem = s.mem) (hi : t.inputs = s.inputs) : Inv t := by
  obtain ⟨_, _, _, _, _, _, _, _, _⟩ := s
  obtain ⟨_, _, _, _, _, _, _, _, _⟩ := t
  subst hb hc hq he hm hi
  exact ⟨h.notInitialized, h.nested, h.subStepZero, h.idleSetup, h.settleProbe, h.nibbleOnlyProbe, h.printIndex,
    h.errCount, h.fontLines, h.activeAssigned, h.subLegal, h.subStepLegal, h.waitStartTick, h.moveGeometry, h.memory,
    h.hostInputs⟩

theorem Inv.answered (h : Inv s) (st : Status) (d : Word) : Inv (answered st d s) :=
  h.congr rfl rfl rfl rfl rfl rfl

theorem Inv.withPort (h : Inv s) (p : Port) : Inv (s.withPort p) :=
  h.congr rfl rfl rfl rfl rfl rfl

/-- Fewer inputs to come are a host's too. -/
theorem Inv.withInputs (h : Inv s) {l : List Input} (hl : ∀ e ∈ l, e ∈ s.inputs) : Inv (s.withInputs l) :=
  { h with hostInputs := fun e he => h.hostInputs e (hl e he) }

/-- A host write keeps the canonical form of memory. -/
theorem Inv.writeMem (h : Inv s) (addr : Word) (v : Byte) : Inv (s.withMem (memPut s.mem addr.toNat v)) :=
  { h with memory := memPut_wf v h.memory addr.isLt }

theorem Inv.withErr (h : Inv s) (hi : s.seq.initialized = true) {e : Err} (he : e.errCount.toNat ≤ 9) :
    Inv (s.withErr e) :=
  { h with
    notInitialized := fun hn => absurd (hi.symm.trans hn) (by decide)
    errCount := he }

/-- The geometry check looks at the line mode alone (R289). -/
theorem geometryOk_congr (line column : Byte) (h : t.cfg.twoLines = s.cfg.twoLines) :
    geometryOk line column t = geometryOk line column s := by
  simp only [geometryOk, h]

/-- A configuration that differs in the flags the invariants do not look at. -/
theorem Inv.withCfg (h : Inv s) {c : DisplayConfig} (h2 : c.twoLines = s.cfg.twoLines)
    (h5 : c.font5x10 = s.cfg.font5x10) : Inv (s.withCfg c) :=
  { h with
    fontLines := by simpa only [configLegal, State.withCfg_cfg, h2, h5] using h.fontLines
    moveGeometry := fun ha => (geometryOk_congr _ _ h2).trans (h.moveGeometry ha) }

/-- The registers of a running transfer: the sub-state is one of the eight, and only a bootstrap probe settles or sends one
nibble. -/
theorem Inv.withTransfer (h : Inv s) (hi : s.seq.initialized = true) {q : Seq} (hidle : s.seq.active ≠ .idle)
    (hsub : (subState q.sub).isSome = true) (hw : q.waitStart < tickModulus s)
    (hset : subState q.sub = some .settle → s.seq.active = .init ∧ s.seq.subStep.toNat ≤ 2)
    (hnib : q.nibbleOnly = true → s.seq.active = .init ∧ s.seq.subStep.toNat ≤ 2)
    (hq : q = { s.seq with
      curByte := q.curByte, curRs := q.curRs, nibbleOnly := q.nibbleOnly, plBl := q.plBl, plRs := q.plRs
      waitStart := q.waitStart, sub := q.sub }) : Inv (s.withSeq q) := by
  rw [hq]
  exact { h with
    notInitialized := fun hn => absurd (hi.symm.trans hn) (by decide)
    idleSetup := fun ha => absurd ha hidle
    settleProbe := hset
    nibbleOnlyProbe := hnib
    subLegal := hsub
    waitStartTick := hw }

/-- A loaded command is at its setup entry; PRINT comes with a character to send and MOVE_ABS with a coordinate inside the
geometry. -/
theorem Inv.load (h : Inv s) (hi : s.seq.initialized = true) {a : Active} {p : CmdParams} (hinit : a ≠ .init)
    (ha : ∀ k, a ≠ .unassigned k) (hprint : a = .print → p.index.toNat < p.len.toNat)
    (hmove : a = .moveAbs → geometryOk p.line p.column s = true) : Inv (load a p s) :=
  { h with
    notInitialized := fun hn => absurd (hi.symm.trans hn) (by decide)
    nested := iff_of_false (by simp [load_eq]) hinit
    subStepZero := fun _ => rfl
    idleSetup := fun _ => rfl
    settleProbe := nofun
    nibbleOnlyProbe := nofun
    printIndex := hprint
    activeAssigned := ha
    subLegal := rfl
    subStepLegal := Nat.zero_le _
    moveGeometry := hmove }

theorem Inv.finish (h : Inv s) (hi : s.seq.initialized = true) : Inv (finish s) :=
  h.load hi (by decide) nofun nofun nofun

/-- An accepted INIT starts the bootstrap at its first probe, in a configuration that passed the check (R240, R241). -/
theorem Inv.startBootstrap (h : Inv s) {a : DisplayConfig} (ha : configLegal a = true) : Inv (startBootstrap a s) :=
  { h with
    notInitialized := nofun
    nested := ⟨fun _ => rfl, fun _ => rfl⟩
    subStepZero := fun hne => absurd rfl hne
    idleSetup := nofun
    settleProbe := nofun
    nibbleOnlyProbe := nofun
    printIndex := nofun
    errCount := Nat.zero_le _
    fontLines := ha
    activeAssigned := nofun
    subLegal := rfl
    subStepLegal := Nat.zero_le _
    moveGeometry := nofun }

/-- The registers at their reset values, with any memory and inputs that meet the invariants (R54, R60). -/
theorem Inv.of_reset (hc : s.cfg = resetConfig) (hq : s.seq = .reset) (he : s.err = .reset)
    (hm : Memory.wf s.mem = true) (hin : ∀ e ∈ s.inputs, e.isHost = true) : Inv s := by
  obtain ⟨_, _, _, _, _, _, _, _, _⟩ := s
  subst hc hq he
  exact
  { notInitialized := fun _ => ⟨rfl, rfl⟩
    nested := ⟨nofun, nofun⟩
    subStepZero := fun _ => rfl
    idleSetup := fun _ => rfl
    settleProbe := nofun
    nibbleOnlyProbe := nofun
    printIndex := nofun
    errCount := Nat.zero_le _
    fontLines := rfl
    activeAssigned := nofun
    subLegal := rfl
    subStepLegal := Nat.zero_le _
    waitStartTick := Nat.two_pow_pos _
    moveGeometry := nofun
    memory := hm
    hostInputs := hin }

/-- Settles O58: reset has the reset registers, a well-formed memory and no inputs. -/
theorem invariantsAtReset : Obligations.InvariantsAtReset :=
  Inv.of_reset rfl rfl rfl reset_memory_wf nofun

/-! ## The steps of a transfer -/

/-- What a step of a transfer leaves of the sequencer registers: a later sub-state, or where it was, with a tick at the most; or
the transfer is complete and the command back at its setup entry. -/
def Advances (s : State) (r : Ran) : Prop :=
  (r.done = false ∧ ∃ (w : Nat) (b : SubBits), w < tickModulus s ∧
      (b = s.seq.sub ∨ ∃ n, subState b = some n ∧ n ≠ .settle) ∧
      r.state.seq = { s.seq with waitStart := w, sub := b }) ∨
    (r.done = true ∧ r.state.seq = { s.seq with sub := .setup, nibbleOnly := false })

theorem Advances.of_seq_eq {r : Ran} (hw : s.seq.waitStart < tickModulus s) (hd : r.done = false)
    (hq : r.state.seq = s.seq) : Advances s r :=
  .inl ⟨hd, s.seq.waitStart, s.seq.sub, hw, .inl rfl, hq⟩

/-- Outside SETUP the bits of a sent raise are H_TICK, H_WAIT, L_TICK or L_WAIT (R44). -/
theorem subState_of_pulseSent (l w : Bool) : ∃ n, subState ⟨false, l, true, w⟩ = some n ∧ n ≠ .settle := by
  cases l <;> cases w <;> exact ⟨_, rfl, by decide⟩

theorem tickStep_advances (hw : s.seq.waitStart < tickModulus s) (hf : s.seq.sub.firstPass = false)
    (hp : s.seq.sub.pulseSent = true) : Advances s (tickStep s) := by
  obtain ⟨k, hk, h⟩ | ⟨-, h⟩ := tickStep_cases s <;> rw [h]
  · have hsub (w) := subState_of_pulseSent s.seq.sub.lowerBits w
    rw [← hf, ← hp] at hsub
    exact .inl ⟨rfl, k, _, tickAnswer_lt s hk, .inr (hsub true), rfl⟩
  · exact .of_seq_eq hw rfl rfl

theorem raiseStep_advances (hw : s.seq.waitStart < tickModulus s) (hf : s.seq.sub.firstPass = false) :
    Advances s (raiseStep s) := by
  obtain ⟨-, h⟩ | ⟨-, -, h⟩ := raiseStep_cases s <;> rw [h]
  · have hsub (w) := subState_of_pulseSent s.seq.sub.lowerBits w
    rw [← hf] at hsub
    obtain ⟨k, hk, h⟩ | ⟨-, h⟩ := tickStep_cases (raised s) <;> rw [h]
    · exact .inl ⟨rfl, k, _, tickAnswer_lt s hk, .inr (hsub true), rfl⟩
    · exact .inl ⟨rfl, _, _, hw, .inr (hsub false), rfl⟩
  · exact .of_seq_eq hw rfl rfl

theorem fallStep_advances (hw : s.seq.waitStart < tickModulus s) (hf : s.seq.sub.firstPass = false) :
    Advances s (fallStep s) := by
  obtain ⟨-, h⟩ | ⟨e, -, ⟨-, h⟩ | ⟨-, -, h⟩ | ⟨-, -, -, h⟩⟩ := fallStep_cases s <;> rw [h]
  · exact .of_seq_eq hw rfl rfl
  · exact .of_seq_eq hw rfl rfl
  · obtain ⟨-, -, h⟩ | ⟨-, h⟩ := afterFall_cases (written (afterTimebase (waitCall s) s) (pay false s)) <;> rw [h]
    · refine .inl ⟨rfl, _, _, hw, .inr ⟨.lRaise, ?_, by decide⟩, rfl⟩
      simp [subState, hf]
    · exact .inr ⟨rfl, rfl⟩
  · exact .of_seq_eq hw rfl rfl

theorem settleStep_advances {r : Ran} (hw : s.seq.waitStart < tickModulus s) (hf : s.seq.sub.firstPass = false)
    (h : settleStep s = .ok r) : Advances s r := by
  obtain ⟨-, h'⟩ | ⟨l, -, ⟨-, h'⟩ | ⟨e, -, ⟨-, h'⟩ | ⟨-, h'⟩⟩⟩ := settleStep_cases s <;> rw [h'] at h <;> cases h
  · exact .of_seq_eq hw rfl rfl
  · exact .of_seq_eq hw rfl rfl
  · exact raiseStep_advances (s := afterTimebase (waitCall s) s) hw hf

theorem sendByteStep_advances {b : SubState} {r : Ran} (hw : s.seq.waitStart < tickModulus s)
    (hb : subState s.seq.sub = some b) (h : sendByteStep b s = .ok r) : Advances s r := by
  have hbits := subState_eq_some hb
  cases b with
  | setup => cases h
  | settle => exact settleStep_advances hw (by rw [hbits]) h
  | hRaise | lRaise => cases h; exact raiseStep_advances hw (by rw [hbits])
  | hTick | lTick => cases h; exact tickStep_advances hw (by rw [hbits]) (by rw [hbits])
  | hWait | lWait => cases h; exact fallStep_advances hw (by rw [hbits])

/-! ## The steps of a transfer leave the configuration -/

@[simp] theorem tickStep_cfg (s : State) : (tickStep s).state.cfg = s.cfg := by
  obtain ⟨k, -, h⟩ | ⟨-, h⟩ := tickStep_cases s <;> rw [h] <;> rfl

@[simp] theorem raiseStep_cfg (s : State) : (raiseStep s).state.cfg = s.cfg := by
  obtain ⟨-, h⟩ | ⟨-, -, h⟩ := raiseStep_cases s <;> rw [h]
  · exact tickStep_cfg (raised s)
  · rfl

@[simp] theorem afterFall_cfg (s : State) : (afterFall s).state.cfg = s.cfg := by
  obtain ⟨-, -, h⟩ | ⟨-, h⟩ := afterFall_cases s <;> rw [h] <;> rfl

@[simp] theorem fallStep_cfg (s : State) : (fallStep s).state.cfg = s.cfg := by
  obtain ⟨-, h⟩ | ⟨e, -, ⟨-, h⟩ | ⟨-, -, h⟩ | ⟨-, -, -, h⟩⟩ := fallStep_cases s <;> rw [h]
  case inr.inr.inl => exact afterFall_cfg (written (afterTimebase (waitCall s) s) (pay false s))
  all_goals rfl

theorem settleStep_cfg {r : Ran} (h : settleStep s = .ok r) : r.state.cfg = s.cfg := by
  obtain ⟨-, h'⟩ | ⟨l, -, ⟨-, h'⟩ | ⟨e, -, ⟨-, h'⟩ | ⟨-, h'⟩⟩⟩ := settleStep_cases s <;> rw [h'] at h <;> cases h
  · rfl
  · rfl
  · exact raiseStep_cfg (afterTimebase (waitCall s) s)

theorem sendByteStep_cfg {b : SubState} {r : Ran} (h : sendByteStep b s = .ok r) : r.state.cfg = s.cfg := by
  cases b with
  | setup => cases h
  | settle => exact settleStep_cfg h
  | hRaise | lRaise => cases h; exact raiseStep_cfg s
  | hTick | lTick => cases h; exact tickStep_cfg s
  | hWait | lWait => cases h; exact fallStep_cfg s

/-! ## The handlers keep the invariants -/

/-- A state whose registers are those of a named update of s, and which a handler left alone otherwise. -/
theorem Inv.of_kept (h : Inv t) (k : Kept s u) (hb : t.build = s.build) (hc : u.cfg = t.cfg) (hq : u.seq = t.seq) (he : t.err = s.err)
    (hm : t.mem = s.mem) (hi : t.inputs = s.inputs) : Inv u :=
  h.congr (k.build.trans hb.symm) hc hq (k.err.trans he.symm) (k.mem.trans hm.symm) (k.inputs.trans hi.symm)

theorem Transfers.active_ne_idle (h : Transfers s) : s.seq.active ≠ .idle := by
  obtain h | h | ⟨h, -⟩ := h
  · exact (cmdByte_isSome_iff.mp h).1
  · rw [h]; decide
  · rw [h]; decide

/-- A step of a transfer keeps the invariants, its end aside. -/
theorem Inv.sendByteStep (h : Inv s) (hi : s.seq.initialized = true) (ht : Transfers s) {b : SubState} {r : Ran}
    (hb : subState s.seq.sub = some b) (hr : sendByteStep b s = .ok r) : Inv r.state := by
  have hk := sendByteStep_kept hr
  have hc := sendByteStep_cfg hr
  obtain ⟨-, w, b', hw, hb', hq⟩ | ⟨-, hq⟩ := sendByteStep_advances h.waitStartTick hb hr
  · have hsub : (subState b').isSome = true := by
      obtain rfl | ⟨n, hn, -⟩ := hb'
      · exact h.subLegal
      · rw [hn]; rfl
    have hset : subState b' = some .settle → s.seq.active = .init ∧ s.seq.subStep.toNat ≤ 2 := by
      obtain rfl | ⟨n, hn, hne⟩ := hb'
      · exact h.settleProbe
      · intro hs
        exact absurd (Option.some.inj (hn.symm.trans hs)) hne
    exact (h.withTransfer hi ht.active_ne_idle (q := { s.seq with waitStart := w, sub := b' }) hsub hw hset
      h.nibbleOnlyProbe rfl).of_kept hk rfl hc hq rfl rfl rfl
  · exact (h.withTransfer hi ht.active_ne_idle (q := { s.seq with sub := .setup, nibbleOnly := false }) rfl
      h.waitStartTick nofun nofun rfl).of_kept hk rfl hc hq rfl rfl rfl

/-- The next bootstrap stage starts at its setup entry; the last one is 8 (R205, R242). -/
theorem Inv.finalize (h : Inv s) (hi : s.seq.initialized = true) (hs : s.seq.sub = .setup)
    (hn : s.seq.nibbleOnly = false) (h7 : s.seq.nested = true → s.seq.subStep.toNat ≤ 7) : Inv (finalize s) := by
  unfold Machine.finalize
  split
  · next hnest =>
    exact { h with
      notInitialized := fun hn => absurd (hi.symm.trans hn) (by decide)
      subStepZero := fun hne => absurd (h.nested.mp hnest) hne
      settleProbe := by simp [hs]
      nibbleOnlyProbe := by simp [hn]
      subStepLegal := by
        have := h7 hnest
        simp only [State.withSeq_seq, BitVec.toNat_add, BitVec.reduceToNat]
        omega }
  · exact h.finish hi

/-- `print_next` (R297): the command ends after its last character, else the index goes on by one. -/
theorem printNext_eq (s : State) : printNext s =
    if s.seq.par.index + 1 = s.seq.par.len then finish s
    else s.withSeq { s.seq with par := { s.seq.par with index := s.seq.par.index + 1 } } := rfl

/-- PRINT goes to its next character only while there is one (R297). -/
theorem Inv.printNext (h : Inv s) (hi : s.seq.initialized = true) (ha : s.seq.active = .print) : Inv (printNext s) := by
  have hlt := h.printIndex ha
  rw [printNext_eq]
  split
  · exact h.finish hi
  · next hne =>
    exact { h with
      notInitialized := fun hn => absurd (hi.symm.trans hn) (by decide)
      printIndex := fun _ => by
        simp only [State.withSeq_seq]
        bv_omega
      moveGeometry := fun hm => absurd (ha.symm.trans hm) (by decide) }

/-- The end of a complete transfer keeps the invariants, of whichever command it is. -/
theorem Inv.transferEnd (h : Inv u) (hi : u.seq.initialized = true) (hs : u.seq.sub = .setup)
    (hn : u.seq.nibbleOnly = false) (ht : Transfers u) : Inv (transferEnd u.seq.active u) := by
  by_cases ha : u.seq.active = .print
  · rw [ha]
    exact h.printNext hi ha
  · rw [transferEnd_of_ne_print ha]
    refine h.finalize hi hs hn fun hnest => ?_
    obtain hb | hp | ⟨-, h7⟩ := ht
    · exact absurd (h.nested.mp hnest) (cmdByte_isSome_iff.mp hb).2.1
    · exact absurd hp ha
    · exact h7

/-- Taking a byte up for transfer keeps the invariants (R163). -/
theorem Inv.setupByte (h : Inv s) (hi : s.seq.initialized = true) (hidle : s.seq.active ≠ .idle) (b : Byte) (rs : Bool) :
    Inv (setupByte b rs s) :=
  h.withTransfer hi hidle rfl h.waitStartTick nofun nofun rfl

/-- Taking a probe up keeps the invariants in a bootstrap stage that is one (R245). -/
theorem Inv.probeSetup (h : Inv s) (hi : s.seq.initialized = true) (ha : s.seq.active = .init)
    (h2 : s.seq.subStep.toNat ≤ 2) (b : Byte) : Inv (probeSetup b s).2 := by
  obtain ⟨k, hk, he⟩ | ⟨-, he⟩ := probeSetup_cases s b <;> rw [he]
  · have hcall : Inv (afterTimebase (tickCall s) s) := h.congr rfl rfl rfl rfl rfl rfl
    exact hcall.withTransfer hi (by simp [ha]) rfl (tickAnswer_lt s hk) (fun _ => ⟨ha, h2⟩) (fun _ => ⟨ha, h2⟩) rfl
  · exact h.congr rfl rfl rfl rfl rfl rfl

/-- The setup entry of a bootstrap stage before the last keeps the invariants. -/
theorem Inv.bootstrapHandler_of_setup (h : Inv s) (hi : s.seq.initialized = true) (ha : s.seq.active = .init)
    (hs : s.seq.sub = .setup) (h7 : s.seq.subStep.toNat ≤ 7) {st : Status} (hu : bootstrapHandler s = .ok (st, u)) :
    Inv u := by
  have hidle : s.seq.active ≠ .idle := by rw [ha]; decide
  by_cases h2 : s.seq.subStep.toNat ≤ 2
  · rw [bootstrapHandler_of_probe h2, probeStep_of_setup hs] at hu
    have hp := h.probeSetup hi ha h2 probeByte
    rwa [Except.ok.inj hu] at hp
  · rw [bootstrapHandler_of_byte hs (by omega) h7] at hu
    cases hu
    have hcfg : Inv (s.withCfg (bootstrapCfg s)) := by
      unfold bootstrapCfg
      split
      · exact h.withCfg rfl rfl
      · exact h
    exact hcfg.setupByte hi hidle _ false

/-- The setup entry of a character keeps the invariants. -/
theorem Inv.printSetup (h : Inv s) (hi : s.seq.initialized = true) (hidle : s.seq.active ≠ .idle) {st : Status}
    (hu : printSetup s = .ok (st, u)) : Inv u := by
  cases hm : memGet s.mem (fetchAddr s).toNat with
  | none =>
    rw [printSetup_of_not_admitted hm] at hu
    cases hu
  | some c =>
    rw [printSetup_of_admitted hm] at hu
    cases hu
    have hread : Inv (s.withEnv { s.env with trace := .memRead (fetchAddr s) c :: s.env.trace }) :=
      h.congr rfl rfl rfl rfl rfl rfl
    exact hread.setupByte hi hidle c true

/-- A later step keeps the invariants, with the end of the transfer where it is complete. -/
theorem Inv.handler_later_step (h : Inv s) (hi : s.seq.initialized = true) (ht : Transfers s) {b : SubState}
    (hb : subState s.seq.sub = some b) (hne : b ≠ .setup) {st : Status} (hu : handler s = .ok (st, u)) : Inv u := by
  obtain ⟨r, hr, -, rfl⟩ := Machine.handler_later_step ht hb hne hu
  have hstep := h.sendByteStep hi ht hb hr
  split
  · next hdone =>
    obtain ⟨hd, -⟩ | ⟨-, hq⟩ := sendByteStep_advances h.waitStartTick hb hr
    · exact absurd (hd.symm.trans hdone.2) (by decide)
    · have ha : r.state.seq.active = s.seq.active := by rw [hq]
      rw [← ha]
      refine hstep.transferEnd ?_ ?_ ?_ ?_
      · rw [hq]; exact hi
      · rw [hq]
      · rw [hq]
      · simpa only [Transfers, hq, cmdByte_isSome_iff] using ht
  · exact hstep

/-- The handler of a command that drives a transfer keeps the invariants. -/
theorem Inv.handler_of_transfers (h : Inv s) (hi : s.seq.initialized = true) (ht : Transfers s) {st : Status}
    (hu : handler s = .ok (st, u)) : Inv u := by
  obtain ⟨b, hb⟩ := Option.isSome_iff_exists.mp h.subLegal
  by_cases hne : b = .setup
  · subst hne
    have hs : s.seq.sub = .setup := subState_eq_some hb
    obtain hc | hp | ⟨ha, h7⟩ := id ht
    · obtain ⟨c, hc⟩ := Option.isSome_iff_exists.mp hc
      rw [handler_of_cmdByte hc, runByte_of_setup c hs] at hu
      cases hu
      exact h.setupByte hi ht.active_ne_idle c false
    · rw [handler_of_print hp, printHandler_of_setup hs] at hu
      exact h.printSetup hi ht.active_ne_idle hu
    · rw [handler_of_init ha] at hu
      exact h.bootstrapHandler_of_setup hi ha hs h7 hu
  · exact h.handler_later_step hi ht hb hne hu

theorem Inv.backlightHandler (h : Inv s) (hi : s.seq.initialized = true) : Inv (backlightHandler s).2 := by
  obtain ⟨-, he⟩ | ⟨-, -, he⟩ := backlightHandler_cases s <;> rw [he]
  · have hwritten : Inv (written s (backlightByte s.cfg.backlight)) := h.congr rfl rfl rfl rfl rfl rfl
    exact hwritten.finish hi
  · exact h.congr rfl rfl rfl rfl rfl rfl

/-- Every handler keeps the invariants. -/
theorem Inv.handler (h : Inv s) (hi : s.seq.initialized = true) {st : Status} (hu : handler s = .ok (st, u)) :
    Inv u := by
  obtain ⟨b, hb, -⟩ | ⟨ha, h'⟩ | ⟨ha, -⟩ | ⟨-, h'⟩ | ⟨k, -, h'⟩ | ⟨-, h'⟩ := handler_cases s
  · exact h.handler_of_transfers hi (.inl (Option.isSome_of_eq_some hb)) hu
  · by_cases h7 : s.seq.subStep.toNat ≤ 7
    · exact h.handler_of_transfers hi (.inr (.inr ⟨ha, h7⟩)) hu
    · rw [h', bootstrapHandler_of_last (by have := h.subStepLegal; omega)] at hu
      cases hu
      exact h.finish hi
  · exact h.handler_of_transfers hi (.inr (.inl ha)) hu
  · have hb := h.backlightHandler hi
    rw [h'] at hu
    rwa [Except.ok.inj hu] at hb
  · rw [h'] at hu; cases hu
  · rw [h'] at hu; cases hu; exact h

/-! ## The instructions keep the invariants -/

/-- The accounting keeps the counter at 9 or below (R54 (8), R343). -/
theorem Inv.account (h : Inv s) (hi : s.seq.initialized = true) (st : Status) : Inv (account st s).2 := by
  obtain ⟨-, he⟩ | ⟨-, -, he⟩ | ⟨-, hne, he⟩ | he := account_cases s st <;> rw [he]
  · exact h.withErr hi (Nat.zero_le 9)
  · exact (h.finish hi).withErr hi (Nat.zero_le 9)
  · refine h.withErr hi ?_
    have h9 := h.errCount
    unfold errCeiling at hne
    bv_omega
  · exact h

theorem Inv.execProcess (h : Inv s) (ht : execProcess s = .next t) : Inv t := by
  obtain ⟨-, rfl⟩ | ⟨st, u, hi, hu, rfl⟩ := execProcess_next s ht
  · exact h.answered _ _
  · have hi' := (account_initialized st u).trans ((handler_initialized hu).trans hi)
    have hacc := (h.handler hi hu).account ((handler_initialized hu).trans hi) st
    have hlast : Inv (setLastError (Machine.account st u).1 (Machine.account st u).2) := hacc.withErr hi' hacc.errCount
    exact hlast.answered _ _

theorem Refuses.inv (hr : Refuses s t) (h : Inv s) : Inv t := by
  obtain ⟨st, -, rfl⟩ := hr
  exact h.answered st 0

theorem Inv.execInit (h : Inv s) {a : DisplayConfig} (ht : execInit a s = .next t) : Inv t := by
  obtain ⟨-, ha, rfl⟩ | hr := execInit_next ht
  · exact (h.startBootstrap ha).answered _ _
  · exact hr.inv h

/-- The commands of the operations without an argument check: a command of its own bytes alone. -/
def Active.isPlain : Active → Bool
  | .init | .print | .moveAbs | .unassigned _ => false
  | .idle | .clear | .home | .displayControls | .entryMode | .backlight | .moveRel | .shiftDisplay => true

/-- An operation without an argument check loads a command that carries no character and no coordinate. -/
theorem Inv.operation {toggle : Bool} {write : State → State} {a : Active} {p : CmdParams} (h : Inv s)
    (ht : operation toggle write a p s = .next t) (hw : Inv (write s)) (hq : (write s).seq = s.seq)
    (ha : a.isPlain = true) : Inv t := by
  obtain ⟨hr, rfl⟩ | hr := operation_next ht
  · obtain ⟨hi, -⟩ := (readyCheck_ok_iff s toggle).mp hr
    rw [← hq] at hi
    have hload : Inv (Machine.load a p (write s)) :=
      hw.load hi (by rintro rfl; cases ha) (by rintro k rfl; cases ha) (by rintro rfl; cases ha) (by rintro rfl; cases ha)
    exact hload.answered _ _
  · exact hr.inv h

theorem Inv.execMoveCursorToCoord (h : Inv s) {line column : Byte}
    (ht : execMoveCursorToCoord line column s = .next t) : Inv t := by
  obtain ⟨hr, hg, rfl⟩ | hr := execMoveCursorToCoord_next ht
  · obtain ⟨hi, -⟩ := (readyCheck_ok_iff s false).mp hr
    have hload := h.load hi (a := .moveAbs) (p := { CmdParams.zero with line := line, column := column }) (by decide)
      nofun nofun fun _ => hg
    exact hload.answered _ _
  · exact hr.inv h

theorem Inv.execPrint (h : Inv s) {buf : Word} {len : BitVec 16} (ht : execPrint buf len s = .next t) : Inv t := by
  obtain ⟨hr, -, hlen, rfl⟩ | hr := execPrint_next ht
  · obtain ⟨hi, -⟩ := (readyCheck_ok_iff s false).mp hr
    have hpos : 0 < len.toNat := by bv_omega
    have hload := h.load hi (a := .print) (p := { CmdParams.zero with buf := buf, len := len }) (by decide) nofun
      (fun _ => hpos) nofun
    exact hload.answered _ _
  · exact hr.inv h

/-- An instruction a host can give keeps the invariants. -/
theorem Inv.exec (h : Inv s) {i : Instr} {c : Txn} (hc : encode i = .host c) (ht : exec i s = .next t) : Inv t := by
  cases i with
  | init a => exact h.execInit ht
  | reset => cases ht; exact Inv.of_reset rfl rfl rfl h.memory h.hostInputs
  | process => exact h.execProcess ht
  | getState | readDiag => cases ht; exact h.answered _ _
  | clear | home | moveRelative | shiftDisplay => exact h.operation ht h rfl rfl
  | setDisplayOnOff | setCursorVisible | setBlinkingCursor | setBacklight | setEntryMode =>
    simp only [Machine.exec] at ht
    refine h.operation ht ?_ rfl rfl
    exact h.withCfg rfl rfl
  | moveCursorToCoord line column => exact h.execMoveCursorToCoord ht
  | print buf len => exact h.execPrint ht
  | _ => cases hc

/-! ## The step keeps the invariants -/

/-- A transaction keeps the invariants, whether its code selects an instruction or not. -/
theorem Inv.runCode (h : Inv s) {c : Txn} (ht : runCode (.host c) s = .next t) : Inv t := by
  unfold Machine.runCode at ht
  cases hd : decode (.host c) with
  | none =>
    simp only [hd] at ht
    cases ht
    exact (h.withPort _).answered _ _
  | some i =>
    simp only [hd] at ht
    exact Inv.exec (h.withPort _) (encode_of_decodeHost hd) ht

theorem Inv.takeInput (h : Inv s) {e : Input} (he : e.isHost = true) (ht : takeInput e s = .next t) : Inv t := by
  cases e with
  | run c =>
    cases c with
    | host c => exact h.runCode ht
    | hdInstruction | hdDataByte | nibblePayload | probePayload | backlightPayload => cases he
  | writeArg0 | writeArg1 => cases ht; exact h.withPort _
  | writeCmd cmd => exact h.runCode ht
  | writeMem addr value => cases ht; exact h.writeMem addr value

/-- Settles O59: taking an input keeps the invariants, and then each kind of input does. -/
theorem invariantsKept : Obligations.InvariantsKept := by
  intro s t h ht
  unfold step stepInput at ht
  split at ht
  · cases ht; exact h
  · next e rest hin =>
    have hrest : Inv (s.withInputs rest) := h.withInputs fun x hx => by rw [hin]; exact List.mem_cons_of_mem e hx
    exact hrest.takeInput (h.hostInputs e (by simp [hin])) ht

/-! ## A step completes -/

/-- The settle times of the three probes (R244). -/
theorem settleTime_of_probe (h : s.seq.subStep.toNat ≤ 2) : settleTime s = some
    ((if s.seq.subStep = 0 then 40 else if s.seq.subStep = 1 then 5 else 1) *
      (if s.build.tbRes = .us then 1000 else 1)) := by
  have hcases : s.seq.subStep = 0 ∨ s.seq.subStep = 1 ∨ s.seq.subStep = 2 := by bv_omega
  obtain h0 | h1 | h2 := hcases
  · cases hr : s.build.tbRes <;> simp [settleTime, tBoot, ticks, *]
  · cases hr : s.build.tbRes <;> simp [settleTime, tSettle1, ticks, *]
  · cases hr : s.build.tbRes <;> simp [settleTime, tSettle2, ticks, *]

/-- A `send_byte_step` outside SETUP completes, in SETTLE where the stage is a probe (R164, R246). -/
theorem sendByteStep_completes {b : SubState} (hne : b ≠ .setup) (hset : b = .settle → s.seq.subStep.toNat ≤ 2) :
    ∃ r, sendByteStep b s = .ok r := by
  cases b with
  | setup => exact absurd rfl hne
  | settle =>
    obtain ⟨hn, -⟩ | ⟨l, -, ⟨-, h⟩ | ⟨e, -, ⟨-, h⟩ | ⟨-, h⟩⟩⟩ := settleStep_cases s
    · cases hn.symm.trans (settleTime_of_probe (hset rfl))
    all_goals exact ⟨_, h⟩
  | hRaise | lRaise | hTick | lTick | hWait | lWait => exact ⟨_, rfl⟩

/-- The handler of a command that drives a transfer completes, the fetch of a character that is not admitted aside. -/
theorem Inv.handler_of_transfers_completes (h : Inv s) (ht : Transfers s)
    (hadm : s.seq.active = .print → s.seq.sub = .setup → ∃ c, memGet s.mem (fetchAddr s).toNat = some c) :
    ∃ r, Machine.handler s = .ok r := by
  obtain ⟨b, hb⟩ := Option.isSome_iff_exists.mp h.subLegal
  by_cases hne : b = .setup
  · subst hne
    have hs : s.seq.sub = .setup := subState_eq_some hb
    obtain hc | hp | ⟨ha, h7⟩ := ht
    · obtain ⟨c, hc⟩ := Option.isSome_iff_exists.mp hc
      exact ⟨_, (handler_of_cmdByte hc).trans (Machine.runByte_of_setup c hs)⟩
    · obtain ⟨c, hm⟩ := hadm hp hs
      exact ⟨_, (handler_of_print hp).trans ((printHandler_of_setup hs).trans (printSetup_of_admitted hm))⟩
    · rw [handler_of_init ha]
      by_cases h2 : s.seq.subStep.toNat ≤ 2
      · exact ⟨_, (bootstrapHandler_of_probe h2).trans (probeStep_of_setup hs)⟩
      · exact ⟨_, bootstrapHandler_of_byte hs (by omega) h7⟩
  · obtain ⟨r, hr⟩ := sendByteStep_completes (s := s) hne fun hset => (h.settleProbe (hset ▸ hb)).2
    exact ⟨_, handler_of_sendByteStep ht hb hne hr⟩

theorem Inv.handler_completes (h : Inv s)
    (hadm : s.seq.active = .print → s.seq.sub = .setup → ∃ c, memGet s.mem (fetchAddr s).toNat = some c) :
    ∃ r, Machine.handler s = .ok r := by
  obtain ⟨b, hb, -⟩ | ⟨ha, h'⟩ | ⟨ha, -⟩ | ⟨-, h'⟩ | ⟨k, ha, -⟩ | ⟨-, h'⟩ := handler_cases s
  · exact h.handler_of_transfers_completes (.inl (Option.isSome_of_eq_some hb)) hadm
  · by_cases h7 : s.seq.subStep.toNat ≤ 7
    · exact h.handler_of_transfers_completes (.inr (.inr ⟨ha, h7⟩)) hadm
    · exact ⟨_, h'.trans (bootstrapHandler_of_last (by have := h.subStepLegal; omega))⟩
  · exact h.handler_of_transfers_completes (.inr (.inl ha)) hadm
  · exact ⟨_, h'⟩
  · exact absurd ha (h.activeAssigned k)
  · exact ⟨_, h'⟩

theorem Inv.execProcess_completes (h : Inv s)
    (hadm : s.seq.active = .print → s.seq.sub = .setup → ∃ c, memGet s.mem (fetchAddr s).toNat = some c) :
    ∃ t, Machine.exec .process s = .next t := by
  cases hi : s.seq.initialized with
  | false => exact ⟨_, execProcess_of_notInitialized hi⟩
  | true =>
    obtain ⟨⟨st, u⟩, hu⟩ := h.handler_completes hadm
    exact ⟨_, execProcess_of_handler s hi hu⟩

theorem operation_completes (toggle : Bool) (write : State → State) (a : Active) (p : CmdParams) (s : State) :
    ∃ t, operation toggle write a p s = .next t := by
  unfold operation
  split <;> exact ⟨_, rfl⟩

/-- PROCESS alone can stop: every other instruction answers. -/
theorem exec_completes {i : Instr} (hne : i ≠ .process) (s : State) : ∃ t, exec i s = .next t := by
  cases i with
  | process => exact absurd rfl hne
  | init a =>
    simp only [exec, execInit]
    split
    · exact ⟨_, rfl⟩
    · split <;> exact ⟨_, rfl⟩
  | moveCursorToCoord line column =>
    simp only [exec, execMoveCursorToCoord]
    split
    · exact ⟨_, rfl⟩
    · exact operation_completes ..
  | print buf len =>
    simp only [exec, execPrint]
    split
    · exact ⟨_, rfl⟩
    · split
      · exact ⟨_, rfl⟩
      · exact operation_completes ..
  | clear | home | moveRelative | shiftDisplay => exact operation_completes ..
  | setDisplayOnOff | setCursorVisible | setBlinkingCursor | setBacklight | setEntryMode =>
    simp only [exec]
    exact operation_completes ..
  | _ => exact ⟨_, rfl⟩

/-- A transaction completes where the PROCESS it may be completes. -/
theorem Inv.runCode_completes (h : Inv s) (c : Txn)
    (hadm : s.seq.active = .print → s.seq.sub = .setup → ∃ c, memGet s.mem (fetchAddr s).toNat = some c) :
    ∃ t, Machine.runCode (.host c) s = .next t := by
  unfold Machine.runCode
  cases decode (.host c) with
  | none => exact ⟨_, rfl⟩
  | some i =>
    by_cases hp : i = .process
    · subst hp
      exact (h.withPort _).execProcess_completes hadm
    · exact exec_completes hp _

/-- Settles O60: a host's input completes, by its kind. -/
theorem invariantsExcludeFaults : Obligations.InvariantsExcludeFaults := by
  intro s h hadm
  unfold step stepInput
  cases hin : s.inputs with
  | nil => exact ⟨s, rfl⟩
  | cons e rest =>
    have hrest : Inv (s.withInputs rest) := h.withInputs fun x hx => by rw [hin]; exact List.mem_cons_of_mem e hx
    have he : e.isHost = true := h.hostInputs e (by simp [hin])
    cases e with
    | run c =>
      cases c with
      | host c => exact hrest.runCode_completes c hadm
      | hdInstruction | hdDataByte | nibblePayload | probePayload | backlightPayload => cases he
    | writeCmd cmd => exact hrest.runCode_completes _ hadm
    | writeArg0 | writeArg1 | writeMem => exact ⟨_, rfl⟩

end Sys2Proof.Machine

/-!
PROOFS. The step, the register port and the transactions beside PROCESS (00_scope.md section 3, 30_encoding.md section 1,
41_sequencer.md sections 4 and 5, 42_bootstrap.md section 1): O8 to O11, O13, O17 to O19.
-/

namespace Sys2Proof.Machine

variable {s t : State}

/-! ## The step (R15) -/

theorem step_of_inputs {e : Input} {rest : List Input} (h : s.inputs = e :: rest) :
    step s = takeInput e (s.withInputs rest) := by
  simp [step, stepInput, h]

/-- A word the decoder knows runs its instruction. -/
theorem runCode_of_decode {c : Code} {i : Instr} (h : decode c = some i) (s : State) :
    runCode c s = exec i (latchArgs c s) := by
  simp [runCode, h]

/-- Only a transaction has argument words (R110). -/
theorem latchArgs_of_not_host {c : Code} (h : ∀ t, c ≠ .host t) (s : State) : latchArgs c s = s := by
  cases c with
  | host t => exact absurd rfl (h t)
  | hdInstruction | hdDataByte | nibblePayload | probePayload | backlightPayload => rfl

/-- A transaction overwrites the argument words at the port (R111; log entry 9). -/
theorem runCode_congr {c : Code} (h : latchArgs c s = latchArgs c t) : runCode c s = runCode c t := by
  unfold runCode
  rw [h]

/-- Settles O8: the step takes the next input, and the input is decoded and run. -/
theorem stepRunsTheDecodedInstruction : Obligations.StepRunsTheDecodedInstruction := by
  refine ⟨fun s c rest i hin hd => ⟨?_, ?_, fun hne => latchArgs_of_not_host hne s⟩, fun s hin => ?_⟩
  · exact (step_of_inputs hin).trans (runCode_of_decode hd _)
  · rintro t rfl
    rfl
  · simp [step, stepInput, hin]

/-- Settles O9: such a code decodes to nothing, and a transaction that does is answered with a status alone. -/
theorem unassignedCommandChangesNothing : Obligations.UnassignedCommandChangesNothing :=
  fun _ t _ hin hcmd => step_of_undecoded hin ((unassignedCommandsAreTheRest t).mpr hcmd)

/-- Settles O10: the two argument writes put the words at the port, and the write of CMD takes them from there. -/
theorem portWritesRunTheTransaction : Obligations.PortWritesRunTheTransaction := by
  refine ⟨fun s a b c rest hin => ?_, fun s st d => ⟨rfl, rfl, rfl, rfl⟩⟩
  have h1 := step_of_inputs hin
  refine ⟨_, _, h1, step_of_inputs (e := .writeArg1 b) (rest := .writeCmd c :: rest) rfl, ?_⟩
  rw [step_of_inputs (e := .writeCmd c) (rest := rest) rfl, step_of_inputs (e := .run (.host ⟨c, a, b⟩)) (rest := rest) rfl]
  exact runCode_congr (c := .host ⟨c, a, b⟩) rfl

/-- Settles O11: by the laws of host memory. -/
theorem hostWriteIsRead : Obligations.HostWriteIsRead :=
  fun s addr v _ hin => ⟨_, step_of_inputs hin, memGet_memPut_same s.mem addr.toNat v,
    fun _ hx => memGet_memPut_other s.mem v hx, rfl⟩

/-- Settles O13: no instruction writes host memory, so each of its bytes reads as before. -/
theorem noInstructionWritesHostMemory : Obligations.NoInstructionWritesHostMemory := by
  intro i s t h
  have hu := exec_untouched h
  obtain ⟨-, hm, -⟩ := id hu
  exact ⟨fun a => by rw [hm], hu⟩

/-! ## RESET, the queries and INIT -/

/-- Settles O17: `execReset` writes these registers, by definition. -/
theorem resetCommand : Obligations.ResetCommand :=
  fun _ => rfl

/-- The device state's code in the registers (R53). -/
theorem devState_code (s : State) : (devState s).code.setWidth 32 =
    (if s.seq.initialized = false then 0 else if s.seq.active = .init then 1 else if s.seq.active = .idle then 2 else 3 :
      Word) := by
  unfold devState
  cases s.seq.initialized with
  | false => rfl
  | true => by_cases hi : s.seq.active = .init <;> by_cases hr : s.seq.active = .idle <;> simp [hi, hr, DevState.code]

/-- The six fields of the READ_DIAG word, from bit 0 up (R119). -/
theorem diagWord_fields (s : State) :
    (diagWord s).extractLsb' 0 8 = s.diag.lastByte ∧ (diagWord s).extractLsb' 8 8 = s.diag.lastPayload ∧
      (diagWord s).extractLsb' 16 8 = s.err.lastError.code ∧ (diagWord s).extractLsb' 24 4 = s.err.errCount ∧
      (diagWord s).extractLsb' 28 2 = (devState s).code ∧ (diagWord s).extractLsb' 30 2 = 0 := by
  unfold diagWord
  refine ⟨BitVec.extractLsb'_append_eq_right, ?_, ?_, ?_, ?_, ?_⟩
  all_goals
    repeat rw [BitVec.extractLsb'_append_eq_of_le (by decide)]
  · exact BitVec.extractLsb'_append_eq_right
  · exact BitVec.extractLsb'_append_eq_right
  · exact BitVec.extractLsb'_append_eq_right
  · exact BitVec.extractLsb'_append_eq_right
  · exact BitVec.extractLsb'_eq_self

/-- Settles O18: each query answers its word, whose fields are at their places. -/
theorem queryCommands : Obligations.QueryCommands := by
  intro s
  obtain ⟨hbyte, hpay, herr, hcount, hstate, hzero⟩ := diagWord_fields s
  refine ⟨?_, diagWord s, rfl, hbyte, hpay, herr, hcount, hstate, hzero, rfl, rfl⟩
  rw [← devState_code]
  rfl

/-- Settles O19: the tests of INIT in their order (R347). -/
theorem initCommand : Obligations.InitCommand := by
  intro s a
  cases hi : s.seq.initialized with
  | true => simp [exec, execInit, hi, respond_eq]
  | false =>
    rw [execInit_of_notInitialized hi]
    cases h2 : a.twoLines <;> cases h5 : a.font5x10 <;> simp [configLegal, h2, h5] <;> rfl

end Sys2Proof.Machine

/-!
PROOFS. The public operations (43_public_ops.md): in Ready they load their command or refuse their arguments (O22 to O26), their
frame (O27), and the bytes of the commands they load (O37).
-/

namespace Sys2Proof.Machine

variable {s t : State}

/-! ## The readiness check (R280) -/

theorem readyCheck_of_ready (h : devState s = .ready) (toggle : Bool) : readyCheck toggle s = .ok := by
  obtain ⟨hi, ha⟩ := devState_ready.mp h
  exact (readyCheck_ok_iff s toggle).mpr ⟨hi, by rw [ha]; decide, .inl ha⟩

/-- In Processing a toggle passes in a preempting build. -/
theorem readyCheck_of_preempting (h : devState s = .processing) (hp : s.build.preemptToggles = true) :
    readyCheck true s = .ok := by
  obtain ⟨hi, -, hinit⟩ := devState_processing.mp h
  exact (readyCheck_ok_iff s true).mpr ⟨hi, hinit, .inr ⟨rfl, hp⟩⟩

theorem readyCheck_of_initializing (h : devState s = .initializing) (toggle : Bool) :
    readyCheck toggle s = .deviceBusy := by
  obtain ⟨hi, ha⟩ := devState_initializing.mp h
  simp [readyCheck, hi, ha]

/-- Settles O22: the readiness check answers DEVICE_BUSY, and every operation makes it first. -/
theorem bootstrapRefusesOperations : Obligations.BootstrapRefusesOperations :=
  fun _ _ hop hd => exec_of_busy hop (readyCheck_of_initializing hd _)

/-! ## The operations the readiness check lets pass -/

/-- An operation without an argument check writes its field and loads its command (R281). -/
theorem operation_of_ready {toggle : Bool} (h : readyCheck toggle s = .ok) (write : State → State) (a : Active)
    (p : CmdParams) : operation toggle write a p s = .next (answered .ok 0 (load a p (write s))) := by
  simp [operation, h, respond_eq]

/-- MOVE_CURSOR_TO_COORD checks the geometry (R291). -/
theorem execMoveCursorToCoord_of_ready (h : readyCheck false s = .ok) (line column : Byte) :
    execMoveCursorToCoord line column s =
      if geometryOk line column s = true then
        .next (answered .ok 0 (load .moveAbs { CmdParams.zero with line := line, column := column } s))
      else .next (answered .invalidArgument 0 s) := by
  unfold execMoveCursorToCoord
  rw [operation_of_ready h]
  cases geometryOk line column s <;> simp [h, respond_eq]

/-- PRINT checks the reference, then the length (R294, R347). -/
theorem execPrint_of_ready (h : readyCheck false s = .ok) (buf : Word) (len : BitVec 16) : execPrint buf len s =
    if buf = 0 then .next (answered .nullReference 0 s)
    else if len = 0 then .next (answered .invalidArgument 0 s)
    else .next (answered .ok 0 (load .print { CmdParams.zero with buf := buf, len := len } s)) := by
  unfold execPrint
  rw [operation_of_ready h]
  simp [h, respond_eq]

/-- Settles O23: in Ready the readiness check passes. -/
theorem readyOperationsLoad : Obligations.ReadyOperationsLoad := by
  intro s d b m h
  have hr := readyCheck_of_ready h false
  dsimp only [exec]
  refine ⟨?_, ?_, ?_, ?_, ?_, ?_⟩ <;> exact operation_of_ready hr ..

/-- Settles O24: in Ready, and for a toggle of a preempting build in Processing, the readiness check passes. -/
theorem togglesLoad : Obligations.TogglesLoad := by
  intro s b h
  have hr : readyCheck true s = .ok := by
    obtain h | ⟨h, hp⟩ := h
    · exact readyCheck_of_ready h true
    · exact readyCheck_of_preempting h hp
  dsimp only [exec]
  refine ⟨?_, ?_, ?_⟩ <;> exact operation_of_ready hr ..

/-- Settles O25: the geometry check is the bounds of R289. -/
theorem moveCursorChecksGeometry : Obligations.MoveCursorChecksGeometry := by
  intro s line column h
  have hg : geometryOk line column s = true ↔
      if s.cfg.twoLines then line.toNat ≤ 1 ∧ column.toNat ≤ 39 else line.toNat = 0 ∧ column.toNat ≤ 79 := by
    cases h2 : s.cfg.twoLines <;> simp [geometryOk, h2]
  refine (execMoveCursorToCoord_of_ready (readyCheck_of_ready h false) line column).trans ?_
  simp only [hg]
  rfl

/-- Settles O26: PRINT past the check of the device state. -/
theorem printChecksItsArguments : Obligations.PrintChecksItsArguments :=
  fun _ buf len h => execPrint_of_ready (readyCheck_of_ready h false) buf len

/-! ## What an operation can do, once for all of them -/

/-- The configuration an operation writes: its one field, if it has one (R281, R284 to R288). -/
def writtenCfg (i : Instr) (c : DisplayConfig) : DisplayConfig :=
  match i with
  | .setDisplayOnOff b => { c with displayEnabled := b }
  | .setCursorVisible b => { c with cursorVisible := b }
  | .setBlinkingCursor b => { c with cursorBlink := b }
  | .setBacklight b => { c with backlight := b }
  | .setEntryMode m => { c with entryMode := m }
  | _ => c

/-- A public operation writes its field and loads its command, or refuses (R281, R299). -/
theorem exec_operation_next {i : Instr} (hop : isOperation i = true) (h : exec i s = .next t) :
    (∃ a p, t = answered .ok 0 (load a p (s.withCfg (writtenCfg i s.cfg)))) ∨ Refuses s t := by
  cases i with
  | clear | home | moveRelative | shiftDisplay | setDisplayOnOff | setCursorVisible | setBlinkingCursor | setBacklight
  | setEntryMode =>
    simp only [exec] at h
    exact (operation_next h).imp_left fun ⟨_, ht⟩ => ⟨_, _, ht⟩
  | moveCursorToCoord line column => exact (execMoveCursorToCoord_next h).imp_left fun ⟨_, _, ht⟩ => ⟨_, _, ht⟩
  | print buf len => exact (execPrint_next h).imp_left fun ⟨_, _, _, ht⟩ => ⟨_, _, ht⟩
  | _ => cases hop

/-- Settles O27: an accepted operation loads its command and writes one configuration field, an accepted INIT starts the
bootstrap, and a refusal only answers. -/
theorem operationsFrame : Obligations.OperationsFrame := by
  intro i s t hi h
  obtain hop | ⟨a, rfl⟩ := hi
  · obtain ⟨a, p, rfl⟩ | ⟨st, -, rfl⟩ := exec_operation_next hop h
    · refine ⟨rfl, rfl, rfl, rfl, rfl, rfl, rfl, exec_untouched h, fun _ => ⟨rfl, rfl, ?_⟩⟩
      cases i <;> exact ⟨rfl, rfl, rfl, rfl, rfl⟩
    · exact ⟨rfl, rfl, rfl, rfl, rfl, rfl, rfl, exec_untouched h, fun _ => ⟨rfl, rfl, rfl, rfl, rfl, rfl, rfl⟩⟩
  · obtain ⟨-, -, rfl⟩ | ⟨st, -, rfl⟩ := execInit_next h
    · exact ⟨rfl, rfl, rfl, rfl, rfl, rfl, rfl, exec_untouched h, nofun⟩
    · exact ⟨rfl, rfl, rfl, rfl, rfl, rfl, rfl, exec_untouched h, nofun⟩

/-! ## The bytes of the commands (R204) -/

theorem displayControlByte_toNat (d c b : Bool) :
    (displayControlByte d c b).toNat = 8 + 4 * d.toNat + 2 * c.toNat + b.toNat := by
  revert d c b; decide

theorem entryModeByte_toNat (m : BitVec 2) : (entryModeByte (m.getLsbD 1) (m.getLsbD 0)).toNat = 4 + m.toNat := by
  revert m; decide

theorem functionSetByte_toNat (dl n f : Bool) :
    (functionSetByte dl n f).toNat = 0x20 + 16 * dl.toNat + 8 * n.toNat + 4 * f.toNat := by
  revert dl n f; decide

theorem cursorShiftByte_toNat (sc : Bool) (d : Direction) : (cursorShiftByte sc d.bit).toNat =
    0x10 + 8 * sc.toNat + if d = .right then 4 else 0 := by
  cases sc <;> cases d <;> rfl

/-- Settles O37: each byte as a number of its fields, and the DDRAM address by its bound. -/
theorem commandBytes : Obligations.CommandBytes := by
  intro s
  refine ⟨rfl, rfl, ⟨_, rfl, displayControlByte_toNat ..⟩, ⟨_, rfl, entryModeByte_toNat _⟩,
    ⟨_, rfl, cursorShiftByte_toNat false _⟩, ⟨_, rfl, cursorShiftByte_toNat true _⟩, fun hg => ⟨_, rfl, ?_⟩⟩
  obtain ⟨haddr, -, hbit⟩ := ddramAddressFits s _ _ hg
  rw [hbit, haddr, Nat.add_assoc]

end Sys2Proof.Machine

/-!
PROOFS. PROCESS: the statuses it returns (O15), the configuration it writes (O28), the accounting (O31, O32), where it stops (O33)
and how often it writes (O34); 41_sequencer.md section 1, 60_exceptions.md section 2, 10_state.md section 4.
-/

namespace Sys2Proof.Machine

variable {s t u : State} {st : Status}

/-! ## The statuses of the steps and handlers (R164, R342) -/

/-- A status a step of a transfer or a handler can return. -/
def Status.isHandled (st : Status) : Bool := decide (st = .ok) || decide (st = .timebaseFailure) || st.isTransport

theorem Status.isHandled_of_isTransport (h : st.isTransport = true) : st.isHandled = true := by
  simp [Status.isHandled, h]

theorem tickStep_isHandled (s : State) : (tickStep s).status.isHandled = true := by
  obtain ⟨k, -, h⟩ | ⟨-, h⟩ := tickStep_cases s <;> rw [h] <;> rfl

theorem raiseStep_isHandled (s : State) : (raiseStep s).status.isHandled = true := by
  obtain ⟨-, h⟩ | ⟨-, ht, h⟩ := raiseStep_cases s <;> rw [h]
  · exact tickStep_isHandled (raised s)
  · exact Status.isHandled_of_isTransport ht

theorem fallStep_isHandled (s : State) : (fallStep s).status.isHandled = true := by
  obtain ⟨-, h⟩ | ⟨e, -, ⟨-, h⟩ | ⟨-, -, h⟩ | ⟨-, -, ht, h⟩⟩ := fallStep_cases s <;> rw [h]
  · rfl
  · rfl
  · rw [afterFall_status]; rfl
  · exact Status.isHandled_of_isTransport ht

theorem settleStep_isHandled {r : Ran} (h : settleStep s = .ok r) : r.status.isHandled = true := by
  obtain ⟨-, h'⟩ | ⟨l, -, ⟨-, h'⟩ | ⟨e, -, ⟨-, h'⟩ | ⟨-, h'⟩⟩⟩ := settleStep_cases s <;> rw [h'] at h <;> cases h
  · rfl
  · rfl
  · exact raiseStep_isHandled (afterTimebase (waitCall s) s)

theorem sendByteStep_isHandled {b : SubState} {r : Ran} (h : sendByteStep b s = .ok r) : r.status.isHandled = true := by
  cases b with
  | setup => cases h
  | settle => exact settleStep_isHandled h
  | hRaise | lRaise => cases h; exact raiseStep_isHandled s
  | hTick | lTick => cases h; exact tickStep_isHandled s
  | hWait | lWait => cases h; exact fallStep_isHandled s

theorem drive_isHandled {f : State → Except Fault (Status × State)} {g : State → State}
    (hf : ∀ {st u}, f s = .ok (st, u) → st.isHandled = true) (h : drive f g s = .ok (st, u)) : st.isHandled = true := by
  obtain ⟨-, h'⟩ | ⟨-, h'⟩ | ⟨b, -, -, ⟨e, -, h'⟩ | ⟨r, hr, h'⟩⟩ := drive_cases s f g <;> rw [h'] at h
  · cases h
  · exact hf h
  · cases h
  · split at h <;> cases h
    · rfl
    · exact sendByteStep_isHandled hr

theorem runByte_isHandled {b : Byte} (h : runByte b s = .ok (st, u)) : st.isHandled = true :=
  drive_isHandled (fun h => by cases h; rfl) h

theorem probeStep_isHandled (h : probeStep s = .ok (st, u)) : st.isHandled = true := by
  refine drive_isHandled (fun {st u} hs => ?_) h
  obtain ⟨k, -, h'⟩ | ⟨-, h'⟩ := probeSetup_cases s probeByte <;> rw [h'] at hs <;> cases hs <;> rfl

theorem bootstrapHandler_isHandled (h : bootstrapHandler s = .ok (st, u)) : st.isHandled = true := by
  obtain ⟨-, h'⟩ | ⟨-, -, -, b, h'⟩ | ⟨-, h'⟩ | ⟨-, h'⟩ | ⟨-, h'⟩ := bootstrapHandler_cases s <;> rw [h'] at h
  · exact probeStep_isHandled h
  · exact runByte_isHandled h
  · exact runByte_isHandled h
  · cases h; rfl
  · cases h

theorem backlightHandler_isHandled (s : State) : (backlightHandler s).1.isHandled = true := by
  obtain ⟨-, h⟩ | ⟨-, ht, h⟩ := backlightHandler_cases s <;> rw [h]
  · rfl
  · exact Status.isHandled_of_isTransport ht

/-- A handler returns OK, TIMEBASE_FAILURE or a status of the transport. -/
theorem handler_isHandled (h : handler s = .ok (st, u)) : st.isHandled = true := by
  obtain ⟨b, -, h'⟩ | ⟨-, h'⟩ | ⟨-, h'⟩ | ⟨-, h'⟩ | ⟨k, -, h'⟩ | ⟨-, h'⟩ := handler_cases s <;> rw [h'] at h
  · exact runByte_isHandled h
  · exact bootstrapHandler_isHandled h
  · exact drive_isHandled (fun hs => by rw [printSetup_status hs]; rfl) h
  · have hb := backlightHandler_isHandled s
    rwa [Except.ok.inj h] at hb
  · cases h
  · cases h; rfl

/-! ## The statuses of the transactions (60_exceptions.md section 2) -/

theorem execInit_status {a : DisplayConfig} (h : execInit a s = .next t) :
    t.port.status ∈ [.ok, .invalidArgument, .wrongState] := by
  unfold execInit at h
  split at h
  · cases h; simp
  · split at h <;> cases h <;> simp

theorem execProcess_status (h : exec .process s = .next t) : t.port.status ∈ [.ok, .notInitialized, .i2cBusy,
    .i2cInvalidAddress, .i2cNotResponding, .i2cMalformedRequest, .timebaseFailure, .maxConsecutiveErrors] := by
  obtain ⟨-, rfl⟩ | ⟨st, u, -, hu, rfl⟩ := execProcess_next s h
  · simp
  · have hst := handler_isHandled hu
    obtain hmax | ⟨hkeep, -⟩ := account_escalates_or_unaltered st u
    · simp [hmax]
    · rw [answered_port, hkeep]
      cases st <;> simp [Status.isHandled, Status.isTransport] at hst ⊢

theorem operation_status {i : Instr} (hop : isOperation i = true) (h : exec i s = .next t) :
    t.port.status ∈ [.ok, .notInitialized, .deviceBusy] ∨
      (t.port.status = .invalidArgument ∧ ((∃ l c, i = .moveCursorToCoord l c) ∨ ∃ b n, i = .print b n)) ∨
      (t.port.status = .nullReference ∧ ∃ b n, i = .print b n) := by
  by_cases hr : readyCheck (isToggle i) s = .ok
  · cases i with
    | moveCursorToCoord line column =>
      rw [show exec (.moveCursorToCoord line column) s = _ from execMoveCursorToCoord_of_ready hr line column] at h
      split at h <;> cases h <;> simp
    | print buf len =>
      rw [show exec (.print buf len) s = _ from execPrint_of_ready hr buf len] at h
      split at h
      · cases h; simp
      · split at h <;> cases h <;> simp
    | clear | home | moveRelative | shiftDisplay | setDisplayOnOff | setCursorVisible | setBlinkingCursor | setBacklight
    | setEntryMode =>
      dsimp only [exec] at h
      cases (operation_of_ready hr ..).symm.trans h
      simp
    | _ => cases hop
  · rw [exec_of_not_ready hop hr] at h
    cases h
    obtain hok | hni | hbusy := readyCheck_cases s (isToggle i)
    · exact absurd hok hr
    · simp [hni]
    · simp [hbusy]

/-- Settles O15: by the kind of the instruction, each from what it can answer. -/
theorem returnedStatuses : Obligations.ReturnedStatuses := by
  intro i s t h
  refine ⟨?_, ?_, ?_, fun hop => operation_status hop h⟩
  · rintro ⟨a, rfl⟩
    exact execInit_status h
  · rintro (rfl | rfl | rfl) <;> cases h <;> rfl
  · rintro rfl
    exact execProcess_status h

/-! ## The configuration under PROCESS (10_state.md section 1) -/

theorem finalize_cfg (s : State) : (finalize s).cfg = s.cfg := by
  unfold finalize
  split <;> rfl

theorem printNext_cfg (s : State) : (printNext s).cfg = s.cfg := by
  rw [printNext_eq]
  split <;> rfl

theorem account_cfg (st : Status) (s : State) : (account st s).2.cfg = s.cfg := by
  obtain ⟨-, h⟩ | ⟨-, -, h⟩ | ⟨-, -, h⟩ | h := account_cases s st <;> rw [h] <;> rfl

theorem probeSetup_cfg (b : Byte) (s : State) : (probeSetup b s).2.cfg = s.cfg := by
  obtain ⟨k, -, h⟩ | ⟨-, h⟩ := probeSetup_cases s b <;> rw [h] <;> rfl

/-- A driven transfer leaves the configuration when its setup entry and its end do. -/
theorem drive_cfg {f : State → Except Fault (Status × State)} {g : State → State}
    (hf : ∀ {st u}, f s = .ok (st, u) → u.cfg = s.cfg) (hg : ∀ v, (g v).cfg = v.cfg) (h : drive f g s = .ok (st, u)) :
    u.cfg = s.cfg := by
  obtain ⟨-, h'⟩ | ⟨-, h'⟩ | ⟨b, -, -, ⟨e, -, h'⟩ | ⟨r, hr, h'⟩⟩ := drive_cases s f g <;> rw [h'] at h
  · cases h
  · exact hf h
  · cases h
  · have hsend := sendByteStep_cfg hr
    split at h <;> cases h
    · split
      · exact (hg r.state).trans hsend
      · exact hsend
    · exact hsend

theorem runByte_cfg {b : Byte} (h : runByte b s = .ok (st, u)) : u.cfg = s.cfg :=
  drive_cfg (fun h => by cases h; rfl) finalize_cfg h

theorem probeStep_cfg (h : probeStep s = .ok (st, u)) : u.cfg = s.cfg := by
  refine drive_cfg (fun {st u} hs => ?_) finalize_cfg h
  have hp := probeSetup_cfg probeByte s
  rwa [Except.ok.inj hs] at hp

theorem printSetup_cfg (h : printSetup s = .ok (st, u)) : u.cfg = s.cfg := by
  cases hm : memGet s.mem (fetchAddr s).toNat with
  | none => rw [printSetup_of_not_admitted hm] at h; cases h
  | some c => rw [printSetup_of_admitted hm] at h; cases h; rfl

/-- Bootstrap step 5 clears the display flag in its setup entry (R250). -/
def ClearsDisplayFlag (s u : State) : Prop :=
  s.seq.active = .init ∧ s.seq.subStep = 5 ∧ s.seq.sub.firstPass = true ∧
    u.cfg = { s.cfg with displayEnabled := false }

theorem bootstrapHandler_cfg (ha : s.seq.active = .init) (h : bootstrapHandler s = .ok (st, u)) :
    u.cfg = s.cfg ∨ ClearsDisplayFlag s u := by
  obtain ⟨-, h'⟩ | ⟨-, -, -, b, h'⟩ | ⟨h5, h'⟩ | ⟨-, h'⟩ | ⟨-, h'⟩ := bootstrapHandler_cases s <;> rw [h'] at h
  · exact .inl (probeStep_cfg h)
  · exact .inl (runByte_cfg h)
  · have hu := runByte_cfg h
    cases hf : s.seq.sub.firstPass with
    | false => exact .inl (by rwa [forceDisplayOff_of_not_firstPass hf] at hu)
    | true => exact .inr ⟨ha, BitVec.eq_of_toNat_eq h5, hf, by rw [hu]; simp [forceDisplayOff, hf]⟩
  · cases h; exact .inl rfl
  · cases h

theorem backlightHandler_cfg (s : State) : (backlightHandler s).2.cfg = s.cfg := by
  obtain ⟨-, h⟩ | ⟨-, -, h⟩ := backlightHandler_cases s <;> rw [h] <;> rfl

/-- A handler leaves the configuration, the display flag in bootstrap step 5 aside. -/
theorem handler_cfg (h : handler s = .ok (st, u)) : u.cfg = s.cfg ∨ ClearsDisplayFlag s u := by
  obtain ⟨b, -, h'⟩ | ⟨ha, h'⟩ | ⟨-, h'⟩ | ⟨-, h'⟩ | ⟨k, -, h'⟩ | ⟨-, h'⟩ := handler_cases s <;> rw [h'] at h
  · exact .inl (runByte_cfg h)
  · exact bootstrapHandler_cfg ha h
  · exact .inl (drive_cfg printSetup_cfg printNext_cfg h)
  · have hb := backlightHandler_cfg s
    rw [Except.ok.inj h] at hb
    exact .inl hb
  · cases h
  · cases h; exact .inl rfl

theorem execProcess_cfg (h : exec .process s = .next t) : t.cfg = s.cfg ∨ ClearsDisplayFlag s t := by
  obtain ⟨-, rfl⟩ | ⟨st, u, -, hu, rfl⟩ := execProcess_next s h
  · exact .inl rfl
  · have hc : ∀ d, (answered (account st u).1 d (setLastError (account st u).1 (account st u).2)).cfg = u.cfg :=
      fun _ => account_cfg st u
    simpa only [ClearsDisplayFlag, hc] using handler_cfg hu

/-! ## Who writes the configuration and the error registers (10_state.md sections 1 and 4) -/

theorem payloadForm_cfg_err {p : Byte} (h : payloadForm p s = .next t) : t.cfg = s.cfg ∧ t.err = s.err := by
  cases h
  obtain ⟨-, hw⟩ | ⟨-, hw, -⟩ := writePayload_cases s p <;> rw [hw] <;> exact ⟨rfl, rfl⟩

/-- An instruction other than INIT, RESET and PROCESS leaves the error registers, and of the configuration it writes its own
field at most. -/
theorem exec_cfg_err {i : Instr} (h : exec i s = .next t) (hreset : i ≠ .reset) (hinit : ∀ a, i ≠ .init a)
    (hprocess : i ≠ .process) : t.err = s.err ∧ (t.cfg = s.cfg ∨ t.cfg = writtenCfg i s.cfg) := by
  by_cases hop : isOperation i = true
  · obtain ⟨a, p, rfl⟩ | ⟨st, -, rfl⟩ := exec_operation_next hop h
    · exact ⟨rfl, .inr rfl⟩
    · exact ⟨rfl, .inl rfl⟩
  · cases i with
    | init a => exact absurd rfl (hinit a)
    | reset => exact absurd rfl hreset
    | process => exact absurd rfl hprocess
    | hdFunctionSet dl n f =>
      cases h
      cases dl
      · exact ⟨rfl, .inl rfl⟩
      · obtain ⟨k, -, hp⟩ | ⟨-, hp⟩ := probeSetup_cases s (functionSetByte true n f) <;> simp [hp]
    | payRaise | payFall | payBacklight | payProbeRaise | payProbeFall =>
      obtain ⟨hc, he⟩ := payloadForm_cfg_err h
      exact ⟨he, .inl hc⟩
    | getState | readDiag | hdClear | hdHome | hdEntryModeSet | hdDisplayControl | hdCursorShift | hdSetDdramAddr
    | hdData => cases h; exact ⟨rfl, .inl rfl⟩
    | _ => exact absurd rfl hop

/-- Settles O28: PROCESS writes the display flag alone, at step 5, and every other instruction the one field of `writtenCfg`. -/
theorem registerWriters : Obligations.RegisterWriters := by
  intro i s t h hreset hinit
  by_cases hp : i = .process
  · subst hp
    obtain hc | ⟨ha, h5, hf, hc⟩ := execProcess_cfg h
    · simp [hc]
    · simp [hc, ha, h5, hf]
  · obtain ⟨he, hc | hc⟩ := exec_cfg_err h hreset hinit hp
    · simp [he, hc]
    · refine ⟨fun _ => he, ?_⟩
      rw [hc]
      cases i <;> simp [writtenCfg]

/-! ## The accounting (60_exceptions.md section 2) -/

/-- The end of a PROCESS whose handler's status is a transport failure other than busy (R343, R345). -/
theorem endProcess_of_failure (h : st = .i2cInvalidAddress ∨ st = .i2cNotResponding ∨ st = .i2cMalformedRequest)
    (u : State) : endProcess st u = .next
      (if u.err.errCount + 1 = errCeiling then
        answered .maxConsecutiveErrors 0 (setLastError .maxConsecutiveErrors (escalate u))
      else answered st 0 { u with err := ⟨st, u.err.errCount + 1⟩ }) := by
  obtain rfl | rfl | rfl := h <;> simp only [endProcess, account, countError] <;> split <;> rfl

/-- Settles O31: the handler's status is accounted for, by the kind of it. -/
theorem processAccounts : Obligations.ProcessAccounts := by
  intro s u st hi hu
  rw [execProcess_of_handler s hi hu]
  refine ⟨?_, ?_, fun hf hlt => ?_, fun hf h9 => ?_⟩
  · rintro (rfl | rfl) <;> rfl
  · rintro rfl
    rfl
  · have hne : u.err.errCount + 1 ≠ errCeiling := by
      unfold errCeiling
      bv_omega
    rw [endProcess_of_failure hf, if_neg hne]
  · have heq : u.err.errCount + 1 = errCeiling := by rw [h9]; rfl
    rw [endProcess_of_failure hf, if_pos heq]
    rfl

/-- An escalation comes from a transport failure that counts, which left the configuration and the diagnostic registers. -/
theorem execProcess_escalated (h : exec .process s = .next t) (hmax : t.port.status = .maxConsecutiveErrors) :
    ∃ u, s.seq.initialized = true ∧ u.seq.initialized = true ∧ SameRegisters s u ∧
      t = answered .maxConsecutiveErrors 0 (setLastError .maxConsecutiveErrors (escalate u)) := by
  obtain ⟨-, rfl⟩ | ⟨st, u, hi, hu, rfl⟩ := execProcess_next s h
  · cases hmax
  · have hst := handler_isHandled hu
    obtain ⟨ho, ha⟩ | ⟨ht, -, ha⟩ | ⟨ht, -, ha⟩ | ha := account_cases u st
    case inr.inr.inl =>
      obtain ⟨hsame, -⟩ := (handler_failsPrecisely hu).1 ht
      exact ⟨u, hi, (handler_initialized hu).trans hi, hsame, by rw [ha]⟩
    all_goals
      rw [ha] at hmax
      obtain rfl : st = .maxConsecutiveErrors := hmax
      cases hst

/-- Settles O32: the escalation finishes the command, and the next PROCESS finds the device Ready. -/
theorem escalationSurfacesOnce : Obligations.EscalationSurfacesOnce := by
  intro s t h hmax
  obtain ⟨u, -, hi, ⟨hc, -, hd⟩, rfl⟩ := execProcess_escalated h hmax
  have hready : devState (answered .maxConsecutiveErrors 0 (setLastError .maxConsecutiveErrors (escalate u))) = .ready :=
    devState_ready.mpr ⟨hi, rfl⟩
  exact ⟨hready, rfl, rfl, rfl, rfl, rfl, rfl, hc, hd, _, processInReady _ hready, rfl, devState_ready.mpr ⟨hi, rfl⟩⟩

/-! ## Where PROCESS stops (log entries 7 and 8) -/

/-- Outside the setup entry's bits every handler of a transfer reads the sub-state first. -/
theorem handler_of_no_subState (ht : Transfers s) (h : subState s.seq.sub = none) :
    handler s = .error .subStateUnreachable := by
  have hoff : subState (forceDisplayOff s).seq.sub = none := by
    unfold forceDisplayOff
    split <;> exact h
  obtain hb | hp | ⟨ha, h7⟩ := ht
  · obtain ⟨b, hb⟩ := Option.isSome_iff_exists.mp hb
    exact (handler_of_cmdByte hb).trans (drive_of_no_subState h)
  · exact (handler_of_print hp).trans (drive_of_no_subState h)
  · rw [handler_of_init ha]
    obtain ⟨-, h'⟩ | ⟨-, -, -, b, h'⟩ | ⟨-, h'⟩ | ⟨h8, -⟩ | ⟨h9, -⟩ := bootstrapHandler_cases s
    · exact h'.trans (drive_of_no_subState h)
    · exact h'.trans (drive_of_no_subState h)
    · exact h'.trans (drive_of_no_subState hoff)
    · omega
    · omega

/-- Settles O33: each stop is a fault of the handler. -/
theorem processFaults : Obligations.ProcessFaults := by
  refine fun s hi => ⟨fun k ha => ?_, fun ha h9 => ?_, fun ht hs => ?_, fun ha hs hm => ?_⟩ <;>
    apply execProcess_of_fault s hi
  · exact handler_of_unassigned ha
  · exact (handler_of_init ha).trans (bootstrapHandler_of_out_of_range h9)
  · exact handler_of_no_subState ht hs
  · exact (handler_of_print ha).trans ((printHandler_of_setup hs).trans (printSetup_of_not_admitted hm))

/-! ## How often PROCESS writes (R171) -/

theorem WritesAtMost.writeCount_le {n : Nat} (h : WritesAtMost n s t) : writeCount t ≤ writeCount s + n := by
  obtain ⟨made, ht, hn, -⟩ := h
  simp only [writeCount, ht, List.filter_append, List.length_append, ← List.countP_eq_length_filter]
  omega

theorem WritesAtMost.writeCount_eq (h : WritesAtMost 0 s t) : writeCount t = writeCount s := by
  have hle := h.writeCount_le
  obtain ⟨made, ht, -, -⟩ := h
  have hge : writeCount s ≤ writeCount t := by simp [writeCount, ht]
  omega

theorem transferEnd_trace (a : Active) (s : State) : (transferEnd a s).env.trace = s.env.trace := by
  unfold transferEnd
  split
  · exact printNext_trace s
  · exact finalize_trace s

/-- The setup entry of a handler of a transfer writes nothing. -/
theorem handler_writes_of_setup (ht : Transfers s) (hs : s.seq.sub = .setup) (hu : handler s = .ok (st, u)) :
    WritesAtMost 0 s u := by
  obtain hb | hp | ⟨ha, h7⟩ := ht
  · obtain ⟨b, hb⟩ := Option.isSome_iff_exists.mp hb
    rw [handler_of_cmdByte hb, runByte_of_setup b hs] at hu
    cases hu
    exact .of_trace_eq rfl
  · rw [handler_of_print hp, printHandler_of_setup hs] at hu
    exact printSetup_writes hu
  · rw [handler_of_init ha] at hu
    by_cases h2 : s.seq.subStep.toNat ≤ 2
    · rw [bootstrapHandler_of_probe h2, probeStep_of_setup hs] at hu
      have hp := probeSetup_writes probeByte s
      rwa [Except.ok.inj hu] at hp
    · rw [bootstrapHandler_of_byte hs (by omega) h7] at hu
      cases hu
      exact .of_trace_eq rfl

/-- A tick on its own writes nothing (R167). -/
theorem handler_writes_of_tick (ht : Transfers s) {b : SubState} (hb : subState s.seq.sub = some b)
    (htick : b = .hTick ∨ b = .lTick) (hu : handler s = .ok (st, u)) : WritesAtMost 0 s u := by
  have hr : sendByteStep b s = .ok (tickStep s) := by obtain rfl | rfl := htick <;> rfl
  obtain ⟨r, hr', -, rfl⟩ := handler_later_step ht hb (by rintro rfl; simp at htick) hu
  obtain rfl := Except.ok.inj (hr.symm.trans hr')
  have htw := tickStep_writes s
  split
  · exact htw.trans (n := 0) (.of_trace_eq (transferEnd_trace _ _))
  · exact htw

/-- Settles O34: one write at most is made by every instruction, and none at a setup entry or a tick by the handler. -/
theorem oneWritePerProcess : Obligations.OneWritePerProcess := by
  intro s t h
  refine ⟨(exec_writes h).writeCount_le, fun ht hsub => ?_⟩
  obtain ⟨-, rfl⟩ | ⟨st, u, -, hu, rfl⟩ := execProcess_next s h
  · rfl
  · have hw : WritesAtMost 0 s u := by
      obtain hs | hs | hs := hsub
      · exact handler_writes_of_setup ht (subState_eq_some hs) hu
      · exact handler_writes_of_tick ht hs (.inl rfl) hu
      · exact handler_writes_of_tick ht hs (.inr rfl) hu
    exact (hw.trans (n := 0) (.of_trace_eq (account_trace st u))).writeCount_eq

end Sys2Proof.Machine

/-!
PROOFS. PROCESS in a byte transfer (40_byte_transfer.md): the setup entry (O39), the raise and its tick (O40, O41), the wait (O42),
the fall (O43, O44) and the pulse width (O45).
-/

namespace Sys2Proof.Machine

variable {s t u : State}

/-- Settles O39: the setup entry of the dispatched command, accounted for as OK. -/
theorem processSetupEntry : Obligations.ProcessSetupEntry := by
  intro s b hi hb hs
  rw [execProcess_of_handler s hi ((handler_of_cmdByte hb).trans (runByte_of_setup b hs)), endProcess_ok]
  rfl

/-! ## The raise and its tick -/

theorem tickStep_done (s : State) : (tickStep s).done = false := by
  obtain ⟨k, -, h⟩ | ⟨-, h⟩ := tickStep_cases s <;> rw [h]

theorem raiseStep_done (s : State) : (raiseStep s).done = false := by
  obtain ⟨-, h⟩ | ⟨-, -, h⟩ := raiseStep_cases s <;> rw [h]
  exact tickStep_done (raised s)

/-- The tick and the accounting after it: recorded, the wait begins; failed, only the call was made (R167). -/
theorem endProcess_tickStep (s : State) :
    ∃ t, endProcess (tickStep s).status (tickStep s).state = .next t ∧ t.cfg = s.cfg ∧ t.diag = s.diag ∧
      Untouched s t ∧ t.env.trace = tickCall s :: s.env.trace ∧
      ((∃ k, tickAnswer s = .ok k ∧ Reports .ok t ∧ t.err.errCount = 0 ∧
          t.seq = { s.seq with waitStart := k, sub := { s.seq.sub with waiting := true } }) ∨
        (tickAnswer s = .fail ∧ Reports .timebaseFailure t ∧ t.err.errCount = s.err.errCount ∧ t.seq = s.seq)) := by
  obtain ⟨k, hk, h⟩ | ⟨hk, h⟩ := tickStep_cases s <;> rw [h]
  · exact ⟨_, rfl, rfl, rfl, ⟨rfl, rfl, rfl, rfl, rfl⟩, rfl, .inl ⟨k, hk, ⟨rfl, rfl, rfl⟩, rfl, rfl⟩⟩
  · exact ⟨_, rfl, rfl, rfl, ⟨rfl, rfl, rfl, rfl, rfl⟩, rfl, .inr ⟨hk, ⟨rfl, rfl, rfl⟩, rfl, rfl⟩⟩

/-- Settles O41: at H_TICK and L_TICK the handler reads the tick. -/
theorem processTicks : Obligations.ProcessTicks := by
  intro s hi ht hsub
  have hx : exec .process s = endProcess (tickStep s).status (tickStep s).state := by
    obtain hb | hb := hsub <;> exact execProcess_of_not_done hi ht hb (by decide) rfl (tickStep_done s)
  rw [hx]
  exact endProcess_tickStep s

/-- What a PROCESS leaves that raises the pending nibble (R165, R166): accepted, the tick is read; refused, only the call was
made. -/
def RaiseOutcome (s t : State) : Prop :=
  t.cfg = s.cfg ∧ Untouched s t ∧
    (i2cEvent s = .ok →
      t.diag = { s.diag with lastPayload := pay true s } ∧
        t.env.trace = .getTick s.cfg.tbId (tickAnswer s)
          :: .i2cWrite s.cfg.i2cId s.cfg.i2cAddr (pay true s) s.build.i2cMaxRetries .ok :: s.env.trace ∧
        (∀ k, tickAnswer s = .ok k → Reports .ok t ∧ t.err.errCount = 0 ∧
          t.seq = { s.seq with waitStart := k, sub := { s.seq.sub with pulseSent := true, waiting := true } }) ∧
        (tickAnswer s = .fail → Reports .timebaseFailure t ∧ t.err.errCount = s.err.errCount ∧
          t.seq = { s.seq with sub := { s.seq.sub with pulseSent := true, waiting := false } })) ∧
    (i2cEvent s ≠ .ok → WriteRefused (pay true s) [] s t)

/-- The raise, its tick, and the accounting after them. -/
theorem endProcess_raiseStep (s : State) :
    ∃ t, endProcess (raiseStep s).status (raiseStep s).state = .next t ∧ RaiseOutcome s t := by
  obtain ⟨hr, h⟩ | ⟨hr, -, h⟩ := raiseStep_cases s <;> rw [h]
  · obtain ⟨t, ht, hc, hd, hu, htr, hend⟩ := endProcess_tickStep (raised s)
    have hcall : (raised s).env.trace =
        .i2cWrite s.cfg.i2cId s.cfg.i2cAddr (pay true s) s.build.i2cMaxRetries .ok :: s.env.trace := by
      rw [← hr]
      rfl
    refine ⟨t, ht, hc, hu, fun _ => ⟨hd, htr.trans (congrArg (tickCall s :: ·) hcall), fun k' hk' => ?_, fun hf => ?_⟩,
      absurd hr⟩
    · obtain ⟨k, hk, hok⟩ | ⟨hk, -⟩ := hend
      · cases hk'.symm.trans hk
        exact hok
      · cases hk'.symm.trans hk
    · obtain ⟨k, hk, -⟩ | ⟨-, hfail⟩ := hend
      · cases hf.symm.trans hk
      · exact hfail
  · obtain ⟨t, ht, href⟩ := endProcess_refused (u := afterI2c (pay true s) s) (made := []) hr ⟨rfl, rfl, rfl⟩ rfl
      ⟨rfl, rfl, rfl, rfl, rfl⟩ (afterI2c_trace s (pay true s))
    have ⟨hc, _, hu, _⟩ := href
    exact ⟨t, ht, hc, hu, fun h => absurd h hr, fun _ => href⟩

/-- Settles O40: at H_RAISE and L_RAISE the handler runs the raise. -/
theorem processRaises : Obligations.ProcessRaises := by
  intro s hi ht hsub
  have hx : exec .process s = endProcess (raiseStep s).status (raiseStep s).state := by
    obtain hb | hb := hsub <;> exact execProcess_of_not_done hi ht hb (by decide) rfl (raiseStep_done s)
  rw [hx]
  exact endProcess_raiseStep s

/-! ## The wait and the fall -/

/-- `T_EN` (R8). -/
theorem tEn_eq (s : State) : tEn s = if s.build.tbRes = .us then 37 else 1 := by
  cases h : s.build.tbRes <;> simp [tEn, ticks, h]

/-- The fall by the answer of Elapsed and of the transport (R168). -/
theorem fallStep_of_fail (h : elapsedAnswer s.seq.waitStart s = .fail) :
    fallStep s = ⟨.timebaseFailure, false, afterTimebase (waitCall s) s⟩ := by
  obtain ⟨-, hf⟩ | ⟨e, he, -⟩ := fallStep_cases s
  · exact hf
  · cases h.symm.trans he

theorem fallStep_of_lt {e : Nat} (h : elapsedAnswer s.seq.waitStart s = .ok e) (hlt : e < tEn s) :
    fallStep s = ⟨.ok, false, afterTimebase (waitCall s) s⟩ := by
  obtain ⟨he, -⟩ | ⟨e', he, ⟨-, hf⟩ | ⟨hle, -⟩ | ⟨hle, -⟩⟩ := fallStep_cases s <;> cases h.symm.trans he
  · exact hf
  · omega
  · omega

theorem fallStep_of_accepted {e : Nat} (h : elapsedAnswer s.seq.waitStart s = .ok e) (hle : tEn s ≤ e)
    (hr : i2cEvent s = .ok) : fallStep s = afterFall (written (afterTimebase (waitCall s) s) (pay false s)) := by
  obtain ⟨he, -⟩ | ⟨e', he, ⟨hlt, -⟩ | ⟨-, -, hf⟩ | ⟨-, hne, -⟩⟩ := fallStep_cases s <;> cases h.symm.trans he
  · omega
  · exact hf
  · exact absurd hr hne

theorem fallStep_of_refused {e : Nat} (h : elapsedAnswer s.seq.waitStart s = .ok e) (hle : tEn s ≤ e)
    (hr : i2cEvent s ≠ .ok) : fallStep s =
      ⟨mapTransport (i2cEvent s), false, afterI2c (pay false s) (afterTimebase (waitCall s) s)⟩ := by
  obtain ⟨he, -⟩ | ⟨e', he, ⟨hlt, -⟩ | ⟨-, hok, -⟩ | ⟨-, -, -, hf⟩⟩ := fallStep_cases s <;> cases h.symm.trans he
  · omega
  · exact absurd hok hr
  · exact hf

section AtWait

variable (hi : s.seq.initialized = true) (ht : Transfers s)
  (hb : subState s.seq.sub = some .hWait ∨ subState s.seq.sub = some .lWait)
include hi ht hb

/-- At H_WAIT and L_WAIT a step that leaves the transfer incomplete is accounted for. -/
theorem execProcess_at_wait (hd : (fallStep s).done = false) :
    exec .process s = endProcess (fallStep s).status (fallStep s).state := by
  obtain hb | hb := hb <;> exact execProcess_of_not_done hi ht hb (by decide) rfl hd

/-- A failed Elapsed (R168). -/
theorem execProcess_at_wait_of_fail (h : elapsedAnswer s.seq.waitStart s = .fail) :
    ∃ t, exec .process s = .next t ∧ TimebaseFailed (waitCheck s) s t := by
  have hf := fallStep_of_fail h
  rw [execProcess_at_wait hi ht hb (by rw [hf]), hf]
  exact endProcess_timebaseFailed ⟨rfl, rfl, rfl⟩ rfl ⟨rfl, rfl, rfl, rfl, rfl⟩ rfl

/-- A refused fall (R168). -/
theorem execProcess_at_wait_of_refused {e : Nat} (h : elapsedAnswer s.seq.waitStart s = .ok e) (hle : tEn s ≤ e)
    (hr : i2cEvent s ≠ .ok) : ∃ t, exec .process s = .next t ∧ WriteRefused (pay false s) [waitCheck s] s t := by
  have hf := fallStep_of_refused h hle hr
  rw [execProcess_at_wait hi ht hb (by rw [hf]), hf]
  exact endProcess_refused hr ⟨rfl, rfl, rfl⟩ rfl ⟨rfl, rfl, rfl, rfl, rfl⟩ rfl

end AtWait

/-- Settles O42: below `T_EN` only the check of the wait is made. -/
theorem processWaits : Obligations.ProcessWaits := by
  intro s e hi ht hb he hlt
  rw [← tEn_eq] at hlt
  have hf := fallStep_of_lt he hlt
  rw [execProcess_at_wait hi ht hb (by rw [hf]), hf, endProcess_ok]
  exact ⟨_, rfl, ⟨rfl, rfl, rfl⟩, rfl, ⟨rfl, rfl, rfl⟩, ⟨rfl, rfl, rfl, rfl, rfl⟩, by rw [← he]; rfl⟩

/-- A payload accepted after the check of the wait is put out. -/
theorem output_of_fall {p : Byte} (hr : i2cEvent s = .ok)
    (ht : t.env.trace = (written (afterTimebase (waitCall s) s) p).env.trace) : output t = output s ++ [p] := by
  obtain ⟨-, ho⟩ := waitCall_unaltered s
  have hw := written_output (s := afterTimebase (waitCall s) s) hr p
  rw [ho] at hw
  rw [← hw, output, output, ht]

/-- Settles O43: the fall of a high nibble leaves the transfer incomplete. -/
theorem processFallsHigh : Obligations.ProcessFallsHigh := by
  intro s hi ht hb hn
  have hbits := subState_eq_some hb
  refine ⟨fun e he hle => ?_, execProcess_at_wait_of_fail hi ht (.inl hb)⟩
  rw [← tEn_eq] at hle
  by_cases hr : i2cEvent s = .ok
  · have hf := fallStep_of_accepted he hle hr
    obtain ⟨-, -, ha⟩ | ⟨hl | hn', -⟩ := afterFall_cases (written (afterTimebase (waitCall s) s) (pay false s))
    · rw [ha] at hf
      rw [execProcess_at_wait hi ht (.inl hb) (by rw [hf]), hf, endProcess_ok]
      refine ⟨_, rfl, fun _ => ⟨⟨rfl, rfl, rfl⟩, rfl, rfl, ⟨rfl, rfl, rfl, rfl, rfl⟩, ?_, rfl, output_of_fall hr rfl⟩,
        absurd hr⟩
      simp [hbits]
    · simp [hbits] at hl
    · simp [hn] at hn'
  · obtain ⟨t, htn, href⟩ := execProcess_at_wait_of_refused hi ht (.inl hb) he hle hr
    exact ⟨t, htn, fun h => absurd h hr, fun _ => href⟩

/-! ## The fall that completes a transfer -/

/-- The sequencer registers after the end of a transfer (R205, R206, R297). -/
theorem transferEnd_seq (a : Active) (s : State) : (transferEnd a s).seq =
    if a = .print then
      if s.seq.par.index + 1 = s.seq.par.len then (finish s).seq
      else { s.seq with par := { s.seq.par with index := s.seq.par.index + 1 } }
    else if s.seq.nested = true then { s.seq with subStep := s.seq.subStep + 1 }
    else (finish s).seq := by
  unfold transferEnd
  split
  · rw [printNext_eq]
    split <;> rfl
  · unfold finalize
    split <;> rfl

/-- The end of a transfer writes the sequencer registers alone. -/
theorem transferEnd_eq_withSeq (a : Active) (s : State) : transferEnd a s = s.withSeq (transferEnd a s).seq := by
  unfold transferEnd
  split
  · rw [printNext_eq]
    split <;> rfl
  · unfold finalize
    split <;> rfl

/-- An accepted fall of the last nibble completes the transfer, and the command's handler ends it. -/
theorem execProcess_completes_transfer (hi : s.seq.initialized = true) (ht : Transfers s)
    (hb : subState s.seq.sub = some .lWait ∨ (subState s.seq.sub = some .hWait ∧ s.seq.nibbleOnly = true)) {e : Nat}
    (he : elapsedAnswer s.seq.waitStart s = .ok e) (hle : tEn s ≤ e) (hr : i2cEvent s = .ok) :
    exec .process s = endProcess .ok (transferEnd s.seq.active
      (completeTransfer (written (afterTimebase (waitCall s) s) (pay false s)))) := by
  have hlast : s.seq.sub.lowerBits = true ∨ s.seq.nibbleOnly = true :=
    hb.imp (fun hb => by rw [subState_eq_some hb]) And.right
  obtain ⟨hl, hn, -⟩ | ⟨-, ha⟩ := afterFall_cases (written (afterTimebase (waitCall s) s) (pay false s))
  · simp_all
  · have hf := (fallStep_of_accepted he hle hr).trans ha
    obtain hb | ⟨hb, -⟩ := hb
    · rw [execProcess_of_done hi ht hb (by decide) (r := fallStep s) rfl (by rw [hf]) (by rw [hf]), hf]
      rfl
    · rw [execProcess_of_done hi ht hb (by decide) (r := fallStep s) rfl (by rw [hf]) (by rw [hf]), hf]
      rfl

/-- Settles O44: the fall of the last nibble completes the transfer, and `transferEnd_seq` says how the command goes on. -/
theorem processCompletesTransfer : Obligations.ProcessCompletesTransfer := by
  intro s hi ht hb
  have hwait : subState s.seq.sub = some .hWait ∨ subState s.seq.sub = some .lWait := hb.symm.imp_left And.left
  refine ⟨fun e he hle => ?_, execProcess_at_wait_of_fail hi ht hwait⟩
  rw [← tEn_eq] at hle
  by_cases hr : i2cEvent s = .ok
  · rw [execProcess_completes_transfer hi ht hb he hle hr, transferEnd_eq_withSeq, endProcess_ok]
    refine ⟨_, rfl, fun _ => ⟨⟨rfl, rfl, rfl⟩, rfl, rfl, ⟨rfl, rfl, rfl, rfl, rfl⟩, rfl, output_of_fall hr rfl, ?_⟩,
      absurd hr⟩
    exact transferEnd_seq _ _
  · obtain ⟨t, htn, href⟩ := execProcess_at_wait_of_refused hi ht hwait he hle hr
    exact ⟨t, htn, fun h => absurd h hr, fun _ => href⟩

/-! ## The pulse width -/

/-- At H_WAIT and L_WAIT the calls of a PROCESS are those of its fall. -/
theorem execProcess_trace_at_wait (hi : s.seq.initialized = true) (ht : Transfers s)
    (hb : subState s.seq.sub = some .hWait ∨ subState s.seq.sub = some .lWait) (h : exec .process s = .next t) :
    t.env.trace = (fallStep s).state.env.trace := by
  obtain ⟨b, hb, hne, hr⟩ : ∃ b, subState s.seq.sub = some b ∧ b ≠ .setup ∧ sendByteStep b s = .ok (fallStep s) := by
    obtain hb | hb := hb <;> exact ⟨_, hb, by decide, rfl⟩
  obtain ⟨hn, -⟩ | ⟨st, u, -, hu, rfl⟩ := execProcess_next s h
  · cases hi.symm.trans hn
  · obtain ⟨r, hr', -, hend⟩ := handler_later_step ht hb hne hu
    obtain rfl := Except.ok.inj (hr.symm.trans hr')
    have hut : u.env.trace = (fallStep s).state.env.trace := by
      rw [hend]
      split
      · exact transferEnd_trace _ _
      · rfl
    exact (account_trace st u).trans hut

theorem output_congr (h : t.env.trace = u.env.trace) : output t = output u := by
  rw [output, output, h]

/-- Settles O45: below `T_EN`, or with no answer of Elapsed, the step at a wait puts nothing out. -/
theorem pulseWidthLowerBound : Obligations.PulseWidthLowerBound := by
  intro s t h ht hb hout
  cases hi : s.seq.initialized with
  | false =>
    rw [execProcess_of_notInitialized hi] at h
    cases h
    exact absurd rfl hout
  | true =>
    have htr := execProcess_trace_at_wait hi ht hb h
    have hmem (e) (he : elapsedAnswer s.seq.waitStart s = .ok e) (c) :
        Call.durationSince s.cfg.tbId s.seq.waitStart (.ok e) ∈ c :: waitCall s :: s.env.trace := by
      rw [waitCall, he]
      simp
    obtain ⟨-, hf⟩ | ⟨e, he, ⟨-, hf⟩ | ⟨hle, -, hf⟩ | ⟨hle, -, -, hf⟩⟩ := fallStep_cases s <;> rw [hf] at htr
    · exact absurd ((output_congr htr).trans (waitCall_unaltered s).2) hout
    · exact absurd ((output_congr htr).trans (waitCall_unaltered s).2) hout
    · refine ⟨e, he, tEn_eq s ▸ hle, ?_⟩
      rw [htr, afterFall_trace]
      exact hmem e he _
    · refine ⟨e, he, tEn_eq s ▸ hle, ?_⟩
      rw [htr]
      exact hmem e he _

end Sys2Proof.Machine

/-!
PROOFS. PROCESS of a PRINT and of the bootstrap (43_public_ops.md section 6, 42_bootstrap.md sections 3 and 4): O48 to O52; and the
timebase (60_exceptions.md section 4): O46.
-/

namespace Sys2Proof.Machine

variable {s t : State}

/-! ## The character fetch -/

/-- The fetch address as a number (R80, R90). -/
theorem fetchAddr_toNat (s : State) :
    (fetchAddr s).toNat = (s.seq.par.buf.toNat + s.seq.par.index.toNat) % 2 ^ 32 := by
  simp only [fetchAddr, BitVec.toNat_add, BitVec.toNat_setWidth]
  omega

/-- The handler of PRINT at the setup entry of a character the platform admits (R296). -/
theorem handler_of_fetch {c : Byte} (ha : s.seq.active = .print) (hs : s.seq.sub = .setup)
    (hm : memGet s.mem (fetchAddr s).toNat = some c) : handler s =
      .ok (.ok, setupByte c true (s.withEnv { s.env with trace := .memRead (fetchAddr s) c :: s.env.trace })) :=
  (handler_of_print ha).trans ((printHandler_of_setup hs).trans (printSetup_of_admitted hm))

/-- Settles O48: the setup entry of a character, accounted for as OK. -/
theorem processFetchesCharacter : Obligations.ProcessFetchesCharacter := by
  intro s c hi ha hs hm
  rw [← fetchAddr_toNat] at hm
  rw [execProcess_of_handler s hi (handler_of_fetch ha hs hm), endProcess_ok]
  exact ⟨_, rfl, ⟨rfl, rfl, rfl⟩, rfl, rfl, rfl, rfl, rfl, ⟨rfl, rfl, rfl, rfl, rfl⟩⟩

/-! ## The probes -/

/-- The handler of a probe's stage at its setup entry (R244). -/
theorem handler_of_probe_setup (ha : s.seq.active = .init) (h2 : s.seq.subStep.toNat ≤ 2) (hs : s.seq.sub = .setup) :
    handler s = .ok (probeSetup probeByte s) :=
  (handler_of_init ha).trans ((bootstrapHandler_of_probe h2).trans (probeStep_of_setup hs))

/-- Settles O49: `probe_setup`, accounted for. -/
theorem processProbeSetup : Obligations.ProcessProbeSetup := by
  intro s hi ha h2 hs
  obtain ⟨-, ho⟩ := afterTimebase_unaltered (c := tickCall s) rfl s
  have hh := handler_of_probe_setup ha h2 hs
  obtain ⟨k, hk, h⟩ | ⟨hk, h⟩ := probeSetup_cases s probeByte <;> rw [h] at hh <;>
    rw [execProcess_of_handler s hi hh]
  · rw [endProcess_ok]
    exact ⟨_, rfl, rfl, rfl, ho, ⟨rfl, rfl, rfl, rfl, rfl⟩, rfl, .inl ⟨k, hk, ⟨rfl, rfl, rfl⟩, rfl, rfl⟩⟩
  · exact ⟨_, rfl, rfl, rfl, ho, ⟨rfl, rfl, rfl, rfl, rfl⟩, rfl, .inr ⟨hk, ⟨rfl, rfl, rfl⟩, rfl, rfl⟩⟩

/-- The settling of a probe by the answer of Elapsed (R246). -/
theorem settleStep_of_fail {limit : Nat} (hl : settleTime s = some limit)
    (h : elapsedAnswer s.seq.waitStart s = .fail) :
    settleStep s = .ok ⟨.timebaseFailure, false, afterTimebase (waitCall s) s⟩ := by
  obtain ⟨hn, -⟩ | ⟨l, -, ⟨-, hf⟩ | ⟨e, he, -⟩⟩ := settleStep_cases s
  · cases hl.symm.trans hn
  · exact hf
  · cases h.symm.trans he

theorem settleStep_of_lt {limit e : Nat} (hl : settleTime s = some limit)
    (h : elapsedAnswer s.seq.waitStart s = .ok e) (hlt : e < limit) :
    settleStep s = .ok ⟨.ok, false, afterTimebase (waitCall s) s⟩ := by
  obtain ⟨hn, -⟩ | ⟨l, hl', ⟨he, -⟩ | ⟨e', he, ⟨-, hf⟩ | ⟨hle, -⟩⟩⟩ := settleStep_cases s
  · cases hl.symm.trans hn
  · cases h.symm.trans he
  · exact hf
  · cases hl.symm.trans hl'
    cases h.symm.trans he
    omega

theorem settleStep_of_le {limit e : Nat} (hl : settleTime s = some limit)
    (h : elapsedAnswer s.seq.waitStart s = .ok e) (hle : limit ≤ e) :
    settleStep s = .ok (raiseStep (afterTimebase (waitCall s) s)) := by
  obtain ⟨hn, -⟩ | ⟨l, hl', ⟨he, -⟩ | ⟨e', he, ⟨hlt, -⟩ | ⟨-, hf⟩⟩⟩ := settleStep_cases s
  · cases hl.symm.trans hn
  · cases h.symm.trans he
  · cases hl.symm.trans hl'
    cases h.symm.trans he
    omega
  · exact hf

/-- Settles O50: the settle time is over or not, and the raise after it is that of the state after the check. -/
theorem processSettles : Obligations.ProcessSettles := by
  intro s hi ha h2 hb limit tick
  have ht : Transfers s := .inr (.inr ⟨ha, by omega⟩)
  have hl : settleTime s = some limit := settleTime_of_probe h2
  have hbits := subState_eq_some hb
  have hexec {r} (hr : settleStep s = .ok r) (hd : r.done = false) : exec .process s = endProcess r.status r.state :=
    execProcess_of_not_done hi ht hb (by decide) hr hd
  refine ⟨fun e he hlt => ?_, fun e he hle => ?_, fun he => ?_⟩
  · rw [hexec (settleStep_of_lt hl he hlt) rfl, endProcess_ok]
    exact ⟨_, rfl, ⟨rfl, rfl, rfl⟩, rfl, ⟨rfl, rfl, rfl⟩, ⟨rfl, rfl, rfl, rfl, rfl⟩, rfl⟩
  · rw [hexec (settleStep_of_le hl he hle) (raiseStep_done _)]
    obtain ⟨t, htn, hc, hu, hok, href⟩ := endProcess_raiseStep (afterTimebase (waitCall s) s)
    refine ⟨t, htn, fun hr => ?_, href⟩
    obtain ⟨hd, htr, htick, hfail⟩ := hok hr
    refine ⟨hc, hu, hd, htr, fun k hk => ?_, fun hf => ?_⟩
    · obtain ⟨hrep, he0, hq⟩ := htick k hk
      exact ⟨hrep, he0, hq.trans (by simp [hbits])⟩
    · obtain ⟨hrep, hkeep, hq⟩ := hfail hf
      exact ⟨hrep, hkeep, hq.trans (by simp [hbits])⟩
  · rw [hexec (settleStep_of_fail hl he) rfl]
    exact endProcess_timebaseFailed ⟨rfl, rfl, rfl⟩ rfl ⟨rfl, rfl, rfl, rfl, rfl⟩ rfl

/-! ## The full bytes of the bootstrap, and its end -/

/-- The bytes of steps 3 to 7 as numbers (R248 to R252). -/
theorem bootstrapByte_toNat (s : State) : (bootstrapByte s).toNat =
    if s.seq.subStep = 3 then 0x20
    else if s.seq.subStep = 4 then 0x20 + 8 * s.cfg.twoLines.toNat + 4 * s.cfg.font5x10.toNat
    else if s.seq.subStep = 5 then 0x08 + 2 * s.cfg.cursorVisible.toNat + s.cfg.cursorBlink.toNat
    else if s.seq.subStep = 6 then 0x01
    else 0x04 + s.cfg.entryMode.toNat := by
  unfold bootstrapByte
  split
  · rfl
  · split
    · exact functionSetByte_toNat ..
    · split
      · exact displayControlByte_toNat ..
      · split
        · rfl
        · exact entryModeByte_toNat _

/-- The handler of a bootstrap stage that sends a full byte, at its setup entry. -/
theorem handler_of_bootstrap_byte (ha : s.seq.active = .init) (hs : s.seq.sub = .setup)
    (h3 : 3 ≤ s.seq.subStep.toNat) (h7 : s.seq.subStep.toNat ≤ 7) :
    handler s = .ok (.ok, setupByte (bootstrapByte s) false (s.withCfg (bootstrapCfg s))) :=
  (handler_of_init ha).trans (bootstrapHandler_of_byte hs h3 h7)

theorem bootstrapCfg_backlight (s : State) : (bootstrapCfg s).backlight = s.cfg.backlight := by
  unfold bootstrapCfg
  split <;> rfl

/-- Settles O51: the setup entry of the stage, accounted for as OK. -/
theorem bootstrapBytes : Obligations.BootstrapBytes := by
  intro s hi ha hs h3 h7
  rw [execProcess_of_handler s hi (handler_of_bootstrap_byte ha hs h3 h7), endProcess_ok]
  refine ⟨_, rfl, ⟨rfl, rfl, rfl⟩, rfl, rfl, rfl, bootstrapByte s, ?_, bootstrapByte_toNat s⟩
  rw [← bootstrapCfg_backlight s]
  rfl

/-- Settles O52: the last stage finishes the command. -/
theorem bootstrapEnds : Obligations.BootstrapEnds := by
  intro s hi ha h8
  have hlast : s.seq.subStep.toNat = 8 := by rw [h8]; rfl
  rw [execProcess_of_handler s hi ((handler_of_init ha).trans (bootstrapHandler_of_last hlast)), endProcess_ok]
  exact ⟨_, rfl, ⟨rfl, rfl, rfl⟩, rfl, rfl, rfl, devState_ready.mpr ⟨hi, rfl⟩, rfl⟩

/-! ## The timebase (R361) -/

/-- An Ok answer of Elapsed: the count ran on by some ticks (log entries 3 and 14). -/
theorem elapsed_ok {ref e : Nat} (h : elapsed ref s = (.ok e, t)) : t.build = s.build ∧ s.env.now ≤ t.env.now ∧
    e = (t.env.now % tickModulus s + tickModulus s - ref % tickModulus s) % tickModulus s := by
  obtain ⟨ha, rfl⟩ := Prod.mk.inj h
  rw [afterTimebase_now]
  unfold elapsedAnswer at ha
  cases he : timebaseEvent s with
  | runs d =>
    simp only [he, TickAnswer.ok.injEq] at ha
    exact ⟨rfl, Nat.le_add_right _ d, ha.symm⟩
  | fails => simp [he] at ha

/-- The difference of two ticks modulo M is that of their counts, until the wrap. -/
theorem mod_sub_mod_of_lt {M n k : Nat} (hk : k < M) : ((n + k) % M + M - n % M % M) % M = k := by
  have hn : n % M < M := Nat.mod_lt n (by omega)
  rw [Nat.mod_mod, Nat.add_mod, Nat.mod_eq_of_lt hk]
  generalize n % M = a at hn
  by_cases hwrap : a + k < M
  · have hsub : a + k + M - a = k + M := by omega
    rw [Nat.mod_eq_of_lt hwrap, hsub, Nat.add_mod_right, Nat.mod_eq_of_lt hk]
  · have hsub : a + k - M + M - a = k := by omega
    have hmod : (a + k) % M = a + k - M := by rw [Nat.mod_eq_sub_mod (by omega), Nat.mod_eq_of_lt (by omega)]
    rw [hmod, hsub, Nat.mod_eq_of_lt hk]

/-- Settles O46: until the wrap an answer is the ticks passed. -/
theorem timebaseIsMonotone : Obligations.TimebaseIsMonotone := by
  intro s u v since e e' hsince h h' hwrap
  obtain ⟨hb, hle, he⟩ := elapsed_ok h
  obtain ⟨-, hle', he'⟩ := elapsed_ok h'
  have hm : tickModulus u = tickModulus s := by rw [tickModulus, hb, tickModulus]
  rw [hm] at he'
  have hpassed (n) (hn : since ≤ n) (hlt : n < since + tickModulus s) :
      (n % tickModulus s + tickModulus s - since % tickModulus s % tickModulus s) % tickModulus s = n - since := by
    obtain ⟨k, rfl⟩ := Nat.exists_eq_add_of_le hn
    rw [mod_sub_mod_of_lt (by omega)]
    omega
  rw [hpassed _ (by omega) (by omega)] at he he'
  omega

end Sys2Proof.Machine

/-!
PROOFS. The output forms as operations (log entry 5; 30_encoding.md sections 2 and 3, 40_byte_transfer.md sections 1 and 2): O53
and O54.
-/

namespace Sys2Proof.Machine

variable {s t : State}

/-! ## The byte forms -/

/-- A byte form other than a probe byte is taken up as its byte (R163; log entry 6). -/
theorem exec_of_formByte {i : Instr} {b : Byte} {rs : Bool} (h : formByte i = some (b, rs))
    (hne : ∀ n f, i ≠ .hdFunctionSet true n f) (s : State) : exec i s = byteForm b rs s := by
  cases i with
  | hdFunctionSet dl n f =>
    cases dl with
    | false => cases h; rfl
    | true => exact absurd rfl (hne n f)
  | hdClear | hdHome | hdEntryModeSet | hdDisplayControl | hdCursorShift | hdSetDdramAddr | hdData => cases h; rfl
  | _ => cases h

/-- Settles O53: a byte form runs `setup_byte`, and FUNCTION_SET with the data-length bit `probe_setup`. -/
theorem byteFormsAreTakenUp : Obligations.ByteFormsAreTakenUp := by
  refine ⟨fun i s b rs h hne => (exec_of_formByte h hne s).trans rfl, fun s n f => ⟨_, rfl, ?_⟩⟩
  obtain ⟨-, ho⟩ := afterTimebase_unaltered (c := tickCall s) rfl s
  obtain ⟨k, hk, h⟩ | ⟨hk, h⟩ := probeSetup_cases s (functionSetByte true n f) <;> simp only [if_true, h]
  · exact ⟨rfl, rfl, rfl, ho, ⟨rfl, rfl, rfl, rfl, rfl⟩, .inl ⟨k, hk, rfl, rfl⟩⟩
  · exact ⟨rfl, rfl, rfl, ho, ⟨rfl, rfl, rfl, rfl, rfl⟩, .inr ⟨hk, rfl, rfl⟩⟩

/-! ## The payload forms -/

/-- A payload form writes its payload (R161). -/
theorem exec_of_formPayload {i : Instr} {p : Byte} (h : formPayload i = some p) (s : State) :
    exec i s = payloadForm p s := by
  cases i with
  | payRaise | payFall | payBacklight | payProbeRaise | payProbeFall => cases h; rfl
  | _ => cases h

/-- The expander takes the last payload put out (R83). -/
theorem expanderLatch_of_output {p : Byte} (h : output t = output s ++ [p]) : expanderLatch t = some p := by
  rw [expanderLatch, h, List.getLast?_concat]

/-- Settles O54: one write, accepted or refused. -/
theorem payloadFormsAreWritten : Obligations.PayloadFormsAreWritten := by
  intro i s p h
  rw [exec_of_formPayload h]
  unfold payloadForm
  obtain ⟨hr, hw⟩ | ⟨hr, hw, -⟩ := writePayload_cases s p <;> rw [hw]
  · refine ⟨_, rfl, rfl, rfl, rfl, rfl, ⟨rfl, rfl, rfl, rfl, rfl⟩, rfl, fun _ => ⟨rfl, rfl, ?_⟩, absurd hr⟩
    exact expanderLatch_of_output (s := s) (written_output hr p)
  · obtain ⟨-, ho⟩ := afterI2c_unaltered hr p
    have hlatch : expanderLatch (afterI2c p s) = expanderLatch s := by rw [expanderLatch, ho, expanderLatch]
    refine ⟨_, rfl, rfl, rfl, rfl, rfl, ⟨rfl, rfl, rfl, rfl, rfl⟩, rfl, fun h => absurd h hr, fun _ =>
      ⟨rfl, ?_, rfl, hlatch⟩⟩
    cases i2cEvent s <;> rfl

end Sys2Proof.Machine

/-!
PROOFS. Host memory is seen by the character fetch alone (20_memory.md sections 1 and 4): O14. Every other operation commutes with
a replacement of memory.
-/

namespace Sys2Proof.Machine

variable (m : List Host.Cell) (s : State)

/-! ### The transfer -/

theorem tickNow_withMem : tickNow (s.withMem m) = Prod.map id (·.withMem m) (tickNow s) := rfl

theorem elapsed_withMem (ref : Nat) : elapsed ref (s.withMem m) = Prod.map id (·.withMem m) (elapsed ref s) := rfl

theorem writePayload_withMem (p : Byte) :
    writePayload p (s.withMem m) = Prod.map id (·.withMem m) (writePayload p s) := by
  unfold writePayload
  rw [apply_ite (Prod.map id _)]
  rfl

theorem tickStep_withMem : tickStep (s.withMem m) = (tickStep s).mapState (·.withMem m) := by
  unfold tickStep
  rw [tickNow_withMem]
  obtain ⟨_ | _, u⟩ := tickNow s <;> rfl

theorem raiseStep_withMem : raiseStep (s.withMem m) = (raiseStep s).mapState (·.withMem m) := by
  have hpay : pay true (s.withMem m) = pay true s := rfl
  unfold raiseStep
  rw [hpay, writePayload_withMem, apply_ite (Ran.mapState _), ← tickStep_withMem]
  rfl

theorem settleStep_withMem : settleStep (s.withMem m) = (settleStep s).map (.mapState (·.withMem m)) := by
  have hlimit : settleTime (s.withMem m) = settleTime s := rfl
  unfold settleStep
  rw [hlimit, State.withMem_seq, elapsed_withMem]
  cases settleTime s with
  | none => rfl
  | some limit =>
    obtain ⟨e | _, u⟩ := elapsed s.seq.waitStart s
    · dsimp only [Prod.map, id]
      rw [raiseStep_withMem, apply_ite (Except.map _)]
      rfl
    · rfl

theorem afterFall_withMem : afterFall (s.withMem m) = (afterFall s).mapState (·.withMem m) := by
  unfold afterFall
  dsimp only
  rw [apply_ite (Ran.mapState _)]
  rfl

theorem fallStep_withMem : fallStep (s.withMem m) = (fallStep s).mapState (·.withMem m) := by
  have hlimit : tEn (s.withMem m) = tEn s := rfl
  unfold fallStep
  rw [hlimit, State.withMem_seq, elapsed_withMem]
  obtain ⟨e | _, u⟩ := elapsed s.seq.waitStart s
  · have hpay : pay false (u.withMem m) = pay false u := rfl
    dsimp only [Prod.map, id]
    rw [hpay, writePayload_withMem]
    dsimp only [Prod.map, id]
    rw [afterFall_withMem, apply_ite (Ran.mapState _), apply_ite (Ran.mapState _)]
    rfl
  · rfl

theorem sendByteStep_withMem (n : SubState) :
    sendByteStep n (s.withMem m) = (sendByteStep n s).map (.mapState (·.withMem m)) := by
  cases n with
  | setup => rfl
  | settle => exact settleStep_withMem m s
  | hRaise | lRaise => exact congrArg Except.ok (raiseStep_withMem m s)
  | hTick | lTick => exact congrArg Except.ok (tickStep_withMem m s)
  | hWait | lWait => exact congrArg Except.ok (fallStep_withMem m s)

theorem probeSetup_withMem (p : Byte) :
    probeSetup p (s.withMem m) = Prod.map id (·.withMem m) (probeSetup p s) := by
  unfold probeSetup
  rw [tickNow_withMem]
  obtain ⟨_ | _, u⟩ := tickNow s <;> rfl

/-! ### The handlers -/

/-- A driven transfer commutes with the replacement when its end does and, at the setup entry, its setup. -/
theorem drive_withMem {f : State → Except Fault (Status × State)} {g : State → State}
    (hf : subState s.seq.sub = some .setup → f (s.withMem m) = mapHandled (·.withMem m) (f s))
    (hg : ∀ v : State, g (v.withMem m) = (g v).withMem m) :
    drive f g (s.withMem m) = mapHandled (·.withMem m) (drive f g s) := by
  unfold drive
  rw [State.withMem_seq]
  rcases hb : subState s.seq.sub with _ | n
  · rfl
  · cases n with
    | setup => exact hf hb
    | settle | hRaise | hTick | hWait | lRaise | lTick | lWait =>
      dsimp only
      rw [sendByteStep_withMem]
      rcases sendByteStep _ s with e | ⟨st, done, u⟩
      · rfl
      · dsimp only [Except.map, Ran.mapState]
        rw [hg, ← apply_ite (State.withMem · m), apply_ite (mapHandled _)]
        rfl

theorem finalize_withMem : finalize (s.withMem m) = (finalize s).withMem m := by
  unfold finalize
  rw [apply_ite (State.withMem · m)]
  rfl

theorem printNext_withMem : printNext (s.withMem m) = (printNext s).withMem m := by
  rw [printNext_eq, printNext_eq, apply_ite (State.withMem · m)]
  rfl

theorem runByte_withMem (c : Byte) : runByte c (s.withMem m) = mapHandled (·.withMem m) (runByte c s) :=
  drive_withMem m s (fun _ => rfl) (finalize_withMem m)

theorem probeStep_withMem : probeStep (s.withMem m) = mapHandled (·.withMem m) (probeStep s) :=
  drive_withMem m s (fun _ => congrArg Except.ok (probeSetup_withMem m s probeByte)) (finalize_withMem m)

theorem forceDisplayOff_withMem : forceDisplayOff (s.withMem m) = (forceDisplayOff s).withMem m := by
  unfold forceDisplayOff
  rw [apply_ite (State.withMem · m)]
  rfl

theorem bootstrapHandler_withMem :
    bootstrapHandler (s.withMem m) = mapHandled (·.withMem m) (bootstrapHandler s) := by
  unfold bootstrapHandler
  rw [State.withMem_seq, forceDisplayOff_withMem]
  generalize s.seq.subStep.toNat = n
  match n with
  | 0 | 1 | 2 => exact probeStep_withMem m s
  | 3 | 4 | 6 | 7 => exact runByte_withMem m s _
  | 5 => exact runByte_withMem m (forceDisplayOff s) _
  | 8 | _ + 9 => rfl

/-- The fetch of a character sees memory at its address alone (R80). -/
theorem printSetup_withMem (h : memGet m (fetchAddr s).toNat = memGet s.mem (fetchAddr s).toNat) :
    printSetup (s.withMem m) = mapHandled (·.withMem m) (printSetup s) := by
  have haddr : fetchAddr (s.withMem m) = fetchAddr s := rfl
  simp only [printSetup, memRead, haddr, State.withMem_mem, h]
  cases memGet s.mem (fetchAddr s).toNat <;> rfl

theorem printHandler_withMem
    (h : s.seq.sub = .setup → memGet m (fetchAddr s).toNat = memGet s.mem (fetchAddr s).toNat) :
    printHandler (s.withMem m) = mapHandled (·.withMem m) (printHandler s) :=
  drive_withMem m s (fun hb => printSetup_withMem m s (h (subState_eq_some hb))) (printNext_withMem m)

theorem backlightHandler_withMem :
    backlightHandler (s.withMem m) = Prod.map id (·.withMem m) (backlightHandler s) := by
  unfold backlightHandler
  rw [State.withMem_cfg, writePayload_withMem]
  dsimp only
  rw [apply_ite (Prod.map id _)]
  rfl

theorem handler_withMem (h : s.seq.active = .print → s.seq.sub = .setup →
    memGet m (fetchAddr s).toNat = memGet s.mem (fetchAddr s).toNat) :
    handler (s.withMem m) = mapHandled (·.withMem m) (handler s) := by
  have hbyte : cmdByte s.seq.active (s.withMem m) = cmdByte s.seq.active s := by cases s.seq.active <;> rfl
  unfold handler
  rw [State.withMem_seq, hbyte]
  rcases cmdByte s.seq.active s with _ | c
  · cases ha : s.seq.active with
    | init => exact bootstrapHandler_withMem m s
    | print => exact printHandler_withMem m s (h ha)
    | backlight => exact congrArg Except.ok (backlightHandler_withMem m s)
    | unassigned | idle | clear | home | displayControls | entryMode | moveAbs | moveRel | shiftDisplay => rfl
  · exact runByte_withMem m s c

theorem account_withMem (st : Status) :
    account st (s.withMem m) = Prod.map id (·.withMem m) (account st s) := by
  have hcount : countError st (s.withMem m) = Prod.map id (·.withMem m) (countError st s) := by
    unfold countError
    rw [apply_ite (Prod.map id _)]
    rfl
  cases st with
  | i2cInvalidAddress | i2cNotResponding | i2cMalformedRequest => exact hcount
  | ok | i2cBusy | timebaseFailure | invalidArgument | nullReference | notInitialized | deviceBusy | wrongState
  | maxConsecutiveErrors => rfl

/-! ### The instructions -/

theorem operation_withMem {toggle : Bool} {write : State → State} {c : Active} {p : CmdParams}
    (hw : write (s.withMem m) = (write s).withMem m) :
    operation toggle write c p (s.withMem m) = mapNext (·.withMem m) (operation toggle write c p s) := by
  unfold operation
  rw [hw, apply_ite (mapNext _)]
  rfl

theorem execInit_withMem (c : DisplayConfig) :
    execInit c (s.withMem m) = mapNext (·.withMem m) (execInit c s) := by
  unfold execInit
  rw [apply_ite (mapNext _), apply_ite (mapNext _)]
  rfl

theorem execMoveCursorToCoord_withMem (line column : Byte) : execMoveCursorToCoord line column (s.withMem m) =
    mapNext (·.withMem m) (execMoveCursorToCoord line column s) := by
  unfold execMoveCursorToCoord
  rw [operation_withMem m s (write := id) rfl, apply_ite (mapNext _)]
  rfl

theorem execPrint_withMem (buf : Word) (len : BitVec 16) :
    execPrint buf len (s.withMem m) = mapNext (·.withMem m) (execPrint buf len s) := by
  unfold execPrint
  rw [operation_withMem m s (write := id) rfl, apply_ite (mapNext _), apply_ite (mapNext _)]
  rfl

theorem execProcess_withMem (h : s.seq.active = .print → s.seq.sub = .setup →
    memGet m (fetchAddr s).toNat = memGet s.mem (fetchAddr s).toNat) :
    execProcess (s.withMem m) = mapNext (·.withMem m) (execProcess s) := by
  unfold execProcess
  rw [State.withMem_seq, handler_withMem m s h, apply_ite (mapNext _)]
  rcases handler s with f | ⟨st, u⟩
  · rfl
  · have hend : endProcess st (u.withMem m) = mapNext (·.withMem m) (endProcess st u) := by
      unfold endProcess
      rw [account_withMem]
      rfl
    dsimp only [mapHandled, Except.map, Prod.map, id]
    rw [hend]
    rfl

theorem payloadForm_withMem (p : Byte) :
    payloadForm p (s.withMem m) = mapNext (·.withMem m) (payloadForm p s) := by
  simp only [payloadForm, writePayload_withMem]
  rfl

theorem execHdFunctionSet_withMem (dl n f : Bool) :
    execHdFunctionSet dl n f (s.withMem m) = mapNext (·.withMem m) (execHdFunctionSet dl n f s) := by
  simp only [execHdFunctionSet, probeSetup_withMem]
  cases dl <;> rfl

/-- Settles O14: each instruction commutes with the replacement, PROCESS where the fetch reads the same byte. -/
theorem memoryIsSeenByTheFetchAlone : Obligations.MemoryIsSeenByTheFetchAlone := by
  intro i s m h
  cases i with
  | init c => exact execInit_withMem m s c
  | process => exact execProcess_withMem m s (h rfl)
  | reset | getState | readDiag => rfl
  | clear | home | moveRelative | shiftDisplay => exact operation_withMem m s (write := id) rfl
  | setDisplayOnOff | setCursorVisible | setBlinkingCursor | setBacklight | setEntryMode =>
    dsimp only [exec]
    refine operation_withMem m s ?_
    rfl
  | moveCursorToCoord line column => exact execMoveCursorToCoord_withMem m s line column
  | print buf len => exact execPrint_withMem m s buf len
  | hdFunctionSet dl n f => exact execHdFunctionSet_withMem m s dl n f
  | hdClear | hdHome | hdEntryModeSet | hdDisplayControl | hdCursorShift | hdSetDdramAddr | hdData => rfl
  | payRaise | payFall | payBacklight | payProbeRaise | payProbeFall => exact payloadForm_withMem m s _

end Sys2Proof.Machine

/-!
PROOFS. Runs of PROCESS with every call answered at once (40_byte_transfer.md section 4, 42_bootstrap.md section 5,
43_public_ops.md section 6): a full byte in five transactions (O55), the bootstrap in 35 (O56), and a PRINT in five a character
(O57).
-/

namespace Sys2Proof.Machine

variable {s t u v : State}

/-! ## Runs in a row -/

theorem processTimes_succ_of_next (h : exec .process s = .next u) (n : Nat) :
    processTimes (n + 1) s = processTimes n u := by
  simp [processTimes, h]

/-- A run of n + 1 transactions that completes has a first one that does. -/
theorem processTimes_succ_next {n : Nat} (h : processTimes (n + 1) s = .next t) :
    ∃ u, exec .process s = .next u ∧ processTimes n u = .next t := by
  unfold processTimes at h
  split at h
  · exact ⟨_, ‹_›, h⟩
  · next hne => exact absurd h (hne t)

theorem runOutput_succ_of_next (h : exec .process s = .next u) (n : Nat) :
    runOutput (List.replicate (n + 1) .process) s =
      ((output u).drop (output s).length).map (placed .process s) ++ runOutput (List.replicate n .process) u := by
  simp [List.replicate_succ, runOutput, h]

/-- A run goes on from where a shorter one ends. -/
theorem processTimes_add {k : Nat} (h : processTimes k s = .next t) (n : Nat) :
    processTimes (k + n) s = processTimes n t := by
  induction k generalizing s with
  | zero => cases h; rw [Nat.zero_add]
  | succ k ih =>
    obtain ⟨u, hu, ht⟩ := processTimes_succ_next h
    rw [Nat.add_right_comm, processTimes_succ_of_next hu, ih ht]

/-- The output of a run that goes on is that of its two parts. -/
theorem runOutput_add {k : Nat} (h : processTimes k s = .next t) (n : Nat) :
    runOutput (List.replicate (k + n) .process) s =
      runOutput (List.replicate k .process) s ++ runOutput (List.replicate n .process) t := by
  induction k generalizing s with
  | zero => cases h; simp [runOutput]
  | succ k ih =>
    obtain ⟨u, hu, ht⟩ := processTimes_succ_next h
    rw [Nat.add_right_comm, runOutput_succ_of_next hu, runOutput_succ_of_next hu, ih ht, List.append_assoc]

/-! ## The answers that a run uses up -/

/-- From s to t the next w answers of the transport and the next c of the timebase were used up, and memory and the build
stayed. -/
structure Consumes (w c : Nat) (s t : State) : Prop where
  build : t.build = s.build
  mem : t.mem = s.mem
  i2c : t.env.i2c = s.env.i2c.drop w
  timebase : t.env.timebase = s.env.timebase.drop c

theorem Consumes.trans {w c w' c' : Nat} (h : Consumes w c s t) (h' : Consumes w' c' t u) :
    Consumes (w + w') (c + c') s u where
  build := h'.build.trans h.build
  mem := h'.mem.trans h.mem
  i2c := by rw [h'.i2c, h.i2c, List.drop_drop]
  timebase := by rw [h'.timebase, h.timebase, List.drop_drop]

theorem Consumes.tickModulus_eq {w c : Nat} (h : Consumes w c s t) : tickModulus t = tickModulus s := by
  rw [tickModulus, h.build, tickModulus]

/-- What is left of the answers. -/
theorem AnswersAtOnce.of_consumes {w c a b : Nat} (h : AnswersAtOnce w c s) (hc : Consumes a b s t) (hw : a ≤ w)
    (hb : b ≤ c) : AnswersAtOnce (w - a) (c - b) t := by
  obtain ⟨⟨rest, hi⟩, ds, rest', ht, hlen, hd⟩ := h
  refine ⟨⟨rest, ?_⟩, ds.drop b, rest', ?_, by rw [List.length_drop, hlen], fun d hmem => ?_⟩
  · rw [hc.i2c, hi, List.drop_append_of_le_length (by simpa using hw), List.drop_replicate]
  · rw [hc.timebase, ht, List.drop_append_of_le_length (by simpa [hlen] using hb), List.map_drop]
  · rw [hc.tickModulus_eq]
    simpa only [tBoot, ticks, hc.build] using hd d (List.mem_of_mem_drop hmem)

theorem AnswersAtOnce.i2cEvent_eq {w c : Nat} (h : AnswersAtOnce w c s) (hw : 0 < w) : i2cEvent s = .ok := by
  obtain ⟨⟨rest, hi⟩, -⟩ := h
  obtain ⟨n, rfl⟩ := Nat.exists_eq_add_of_lt hw
  simp [i2cEvent, hi, List.replicate_succ]

theorem AnswersAtOnce.timebaseEvent_eq {w c : Nat} (h : AnswersAtOnce w c s) (hc : 0 < c) :
    ∃ d, timebaseEvent s = .runs d ∧ tBoot s ≤ d ∧ d < tickModulus s := by
  obtain ⟨-, ds, rest, ht, rfl, hd⟩ := h
  cases ds with
  | nil => simp at hc
  | cons d ds => exact ⟨d, by simp [timebaseEvent, ht], hd d List.mem_cons_self⟩

theorem tickAnswer_of_runs {d : Nat} (h : timebaseEvent s = .runs d) :
    tickAnswer s = .ok ((s.env.now + d) % tickModulus s) := by
  simp [tickAnswer, h]

/-- After d ticks Elapsed answers d for a wait that started at the present tick. -/
theorem elapsedAnswer_of_runs {d : Nat} (h : timebaseEvent s = .runs d)
    (hw : s.seq.waitStart = s.env.now % tickModulus s) (hd : d < tickModulus s) :
    elapsedAnswer s.seq.waitStart s = .ok d := by
  simp only [elapsedAnswer, h, hw, mod_sub_mod_of_lt hd]

theorem afterTimebase_now_of_runs {d : Nat} (h : timebaseEvent s = .runs d) (c : Call) :
    (afterTimebase c s).env.now = s.env.now + d := by
  rw [afterTimebase_now, h]

/-- The thresholds are at most `T_BOOT` (R8, R391). -/
theorem tEn_le_tBoot (s : State) : tEn s ≤ tBoot s := by
  unfold tEn tBoot ticks
  split <;> decide

theorem settleTime_le_tBoot {limit : Nat} (h : settleTime s = some limit) : limit ≤ tBoot s := by
  unfold settleTime at h
  split at h <;> cases h <;> simp only [tBoot, tSettle1, tSettle2, ticks] <;> split <;> decide

/-! ## Runs of PROCESS with their output -/

/-- n PROCESS transactions take s to t with w writes accepted and c answers of the timebase: the last returns OK, the device state
is that of s up to it, and the payloads cs are put out, each with its place. -/
structure Runs (n w c : Nat) (cs : List Code) (s t : State) : Prop where
  times : processTimes n s = .next t
  within : ∀ k < n, ∃ u, processTimes k s = .next u ∧ devState u = devState s
  status : t.port.status = .ok
  placed : runOutput (List.replicate n .process) s = cs
  output : output t = output s ++ cs.map Code.tableByte
  consumes : Consumes w c s t

theorem Runs.trans {m n w w' c c' : Nat} {cs ds : List Code} (h : Runs m w c cs s t) (hd : devState t = devState s)
    (h' : Runs n w' c' ds t u) : Runs (m + n) (w + w') (c + c') (cs ++ ds) s u where
  times := (processTimes_add h.times n).trans h'.times
  within j hj := by
    by_cases hk : j < m
    · exact h.within j hk
    · obtain ⟨i, rfl⟩ := Nat.exists_eq_add_of_le (Nat.not_lt.mp hk)
      obtain ⟨v, hv, hdv⟩ := h'.within i (by omega)
      exact ⟨v, (processTimes_add h.times i).trans hv, hdv.trans hd⟩
  status := h'.status
  placed := by rw [runOutput_add h.times, h.placed, h'.placed]
  output := by rw [h'.output, h.output, List.map_append, List.append_assoc]
  consumes := h.consumes.trans h'.consumes

theorem AnswersAtOnce.of_runs {n w c a b : Nat} {cs : List Code} (h : AnswersAtOnce w c s) (hr : Runs n a b cs s t)
    (hw : a ≤ w) (hb : b ≤ c) : AnswersAtOnce (w - a) (c - b) t :=
  h.of_consumes hr.consumes hw hb

theorem tableByte_placed_process (s : State) (p : Byte) : (placed .process s p).tableByte = p := by
  simp only [placed]
  split
  · rfl
  · split <;> rfl

/-- One PROCESS whose handler's state x is accounted for as OK. -/
theorem Runs.of_endProcess {x : State} {w c : Nat} {ps : List Byte} (h : exec .process s = endProcess .ok x)
    (ho : Machine.output x = Machine.output s ++ ps) (hc : Consumes w c s x) :
    ∃ t, Runs 1 w c (ps.map (Machine.placed .process s)) s t ∧ t.cfg = x.cfg ∧ t.seq = x.seq ∧ t.diag = x.diag ∧
      t.env.now = x.env.now := by
  rw [endProcess_ok] at h
  have hot : Machine.output (answered .ok 0 { x with err := ⟨.ok, 0⟩ }) = Machine.output s ++ ps := ho
  refine ⟨answered .ok 0 { x with err := ⟨.ok, 0⟩ }, ⟨?_, ?_, rfl, ?_, ?_, ⟨hc.build, hc.mem, hc.i2c, hc.timebase⟩⟩, rfl,
    rfl, rfl, rfl⟩
  · exact processTimes_succ_of_next h 0
  · intro k hk
    obtain rfl : k = 0 := by omega
    exact ⟨s, rfl, rfl⟩
  · rw [runOutput_succ_of_next h, hot, List.drop_left, List.replicate_zero, runOutput, List.append_nil]
  · rw [hot, List.map_map]
    congr 1
    exact (List.map_id'' (tableByte_placed_process s) ps).symm

/-- A payload of a transfer stands in its place: a probe's, or a full byte's (log entry 17). -/
theorem placed_of_transfers (ht : Transfers s) (p : Byte) : placed .process s p =
    if s.seq.nibbleOnly then .probePayload p else .nibblePayload p := by
  have hne : s.seq.active ≠ .backlight := by
    obtain h | h | ⟨h, -⟩ := ht
    · exact (cmdByte_isSome_iff.mp h).2.2.1
    · rw [h]; decide
    · rw [h]; decide
  simp [placed, hne]

theorem Transfers.congr (ht : Transfers s) (ha : t.seq.active = s.seq.active) (hs : t.seq.subStep = s.seq.subStep) :
    Transfers t := by
  simpa only [Transfers, ha, hs, cmdByte_isSome_iff] using ht

theorem devState_congr (hi : t.seq.initialized = s.seq.initialized) (ha : t.seq.active = s.seq.active) :
    devState t = devState s := by
  simp only [devState, hi, ha]

/-! ## The transactions of a transfer -/

/-- The raise with both calls answered (R165, R166). -/
theorem raiseStep_answered {d : Nat} (hr : i2cEvent s = .ok) (ht : timebaseEvent s = .runs d) :
    ∃ x, raiseStep s = ⟨.ok, false, x⟩ ∧ x.cfg = s.cfg ∧
      x.seq = { s.seq with waitStart := x.env.now % tickModulus s, sub := { s.seq.sub with pulseSent := true, waiting := true } } ∧
      output x = output s ++ [pay true s] ∧ Consumes 1 1 s x := by
  obtain ⟨-, h⟩ | ⟨hne, -⟩ := raiseStep_cases s
  · obtain ⟨k, hk, h'⟩ | ⟨hk, -⟩ := tickStep_cases (raised s)
    · have hn : tickAnswer (raised s) = .ok ((s.env.now + d) % tickModulus s) := tickAnswer_of_runs ht
      cases hn.symm.trans hk
      have hnow : (afterTimebase (tickCall (raised s)) (raised s)).env.now = s.env.now + d :=
        afterTimebase_now_of_runs ht (tickCall (raised s))
      refine ⟨_, h.trans h', rfl, by rw [← hnow]; rfl, ?_, ?_⟩
      · exact (afterTimebase_unaltered (c := tickCall (raised s)) rfl (raised s)).2.trans (written_output hr (pay true s))
      · exact ⟨rfl, rfl, List.drop_one.symm, List.drop_one.symm⟩
    · cases (tickAnswer_of_runs (s := raised s) (d := d) ht).symm.trans hk
  · exact absurd hr hne


/-- The raise of a nibble, at H_RAISE or L_RAISE. -/
theorem run_raise {w c : Nat} {l : Bool} (hi : s.seq.initialized = true) (ht : Transfers s)
    (hs : s.seq.sub = ⟨false, l, false, false⟩) (ha : AnswersAtOnce w c s) (hw : 0 < w) (hc : 0 < c) :
    ∃ t, Runs 1 1 1 [placed .process s (pay true s)] s t ∧ t.cfg = s.cfg ∧
      t.seq = { s.seq with waitStart := t.env.now % tickModulus t, sub := ⟨false, l, true, true⟩ } := by
  obtain ⟨d, hd, -, -⟩ := ha.timebaseEvent_eq hc
  obtain ⟨x, hx, hcfg, hseq, hout, hcons⟩ := raiseStep_answered (ha.i2cEvent_eq hw) hd
  obtain ⟨b, hb, hne, hsend⟩ : ∃ b, subState s.seq.sub = some b ∧ b ≠ .setup ∧ sendByteStep b s = .ok (raiseStep s) := by
    rw [hs]
    cases l <;> exact ⟨_, rfl, by decide, rfl⟩
  have hexec := execProcess_of_not_done hi ht hb hne hsend (raiseStep_done s)
  rw [hx] at hexec
  obtain ⟨t, hrun, htcfg, htseq, -, hnow⟩ := Runs.of_endProcess hexec hout hcons
  refine ⟨t, hrun, htcfg.trans hcfg, htseq.trans (hseq.trans ?_)⟩
  rw [hnow, hrun.consumes.tickModulus_eq, hs]

/-- The fall of a high nibble. -/
theorem run_fallHigh {w c : Nat} (hi : s.seq.initialized = true) (ht : Transfers s)
    (hs : s.seq.sub = ⟨false, false, true, true⟩) (hn : s.seq.nibbleOnly = false)
    (hwait : s.seq.waitStart = s.env.now % tickModulus s) (ha : AnswersAtOnce w c s) (hw : 0 < w) (hc : 0 < c) :
    ∃ t, Runs 1 1 1 [placed .process s (pay false s)] s t ∧ t.cfg = s.cfg ∧
      t.seq = { s.seq with sub := ⟨false, true, false, false⟩ } := by
  obtain ⟨d, hd, hle, hlt⟩ := ha.timebaseEvent_eq hc
  have hr := ha.i2cEvent_eq hw
  have hf := fallStep_of_accepted (elapsedAnswer_of_runs hd hwait hlt) ((tEn_le_tBoot s).trans hle) hr
  have hb : subState s.seq.sub = some .hWait := by rw [hs]; rfl
  obtain ⟨-, -, hafter⟩ | ⟨hl | hn', -⟩ := afterFall_cases (written (afterTimebase (waitCall s) s) (pay false s))
  · rw [hafter] at hf
    have hexec := execProcess_at_wait hi ht (.inl hb) (by rw [hf])
    rw [hf] at hexec
    obtain ⟨t, hrun, htcfg, htseq, -, -⟩ := Runs.of_endProcess (w := 1) (c := 1) hexec (output_of_fall hr rfl)
      ⟨rfl, rfl, List.drop_one.symm, List.drop_one.symm⟩
    exact ⟨t, hrun, htcfg, htseq.trans (by simp [hs])⟩
  · simp [hs] at hl
  · simp [hn] at hn'

/-- The last fall of a transfer, and the end of it. -/
theorem run_fallLast {w c : Nat} {l : Bool} (hi : s.seq.initialized = true) (ht : Transfers s)
    (hs : s.seq.sub = ⟨false, l, true, true⟩) (hl : l = true ∨ s.seq.nibbleOnly = true)
    (hwait : s.seq.waitStart = s.env.now % tickModulus s) (ha : AnswersAtOnce w c s) (hw : 0 < w) (hc : 0 < c) :
    ∃ t, Runs 1 1 1 [placed .process s (pay false s)] s t ∧ t.cfg = s.cfg ∧ t.diag.lastByte = s.seq.curByte ∧
      t.seq = (transferEnd s.seq.active (s.withSeq { s.seq with sub := .setup, nibbleOnly := false })).seq := by
  obtain ⟨d, hd, hle, hlt⟩ := ha.timebaseEvent_eq hc
  have hr := ha.i2cEvent_eq hw
  have hb : subState s.seq.sub = some .lWait ∨ (subState s.seq.sub = some .hWait ∧ s.seq.nibbleOnly = true) := by
    rw [hs]
    cases l with
    | true => exact .inl rfl
    | false => exact .inr ⟨rfl, hl.resolve_left (by decide)⟩
  have hexec := execProcess_completes_transfer hi ht hb (elapsedAnswer_of_runs hd hwait hlt)
    ((tEn_le_tBoot s).trans hle) hr
  rw [transferEnd_eq_withSeq] at hexec
  obtain ⟨t, hrun, htcfg, htseq, htdiag, -⟩ := Runs.of_endProcess (w := 1) (c := 1) hexec (output_of_fall hr rfl)
    ⟨rfl, rfl, List.drop_one.symm, List.drop_one.symm⟩
  refine ⟨t, hrun, htcfg, congrArg Diag.lastByte htdiag, htseq.trans ?_⟩
  rw [State.withSeq_seq, transferEnd_seq, transferEnd_seq]
  rfl

/-- The end of a transfer reads the sequencer registers alone. -/
theorem transferEnd_seq_congr (a : Active) (h : u.seq = s.seq) : (transferEnd a u).seq = (transferEnd a s).seq := by
  simp only [transferEnd_seq, finish, load, State.withSeq_seq, h]

theorem transferEnd_seq_of_nested {a : Active} (ha : a ≠ .print) (h : s.seq.nested = true) :
    (transferEnd a s).seq = { s.seq with subStep := s.seq.subStep + 1 } := by
  rw [transferEnd_seq, if_neg ha, if_pos h]

theorem transferEnd_seq_of_not_nested {a : Active} (ha : a ≠ .print) (h : s.seq.nested = false) :
    (transferEnd a s).seq = (finish s).seq := by
  rw [transferEnd_seq, if_neg ha, if_neg (by simp [h])]

/-- The four pulses of a full byte that was taken up (R175). -/
theorem run_fourPulses {w c : Nat} (hi : s.seq.initialized = true) (ht : Transfers s)
    (hs : s.seq.sub = ⟨false, false, false, false⟩) (hn : s.seq.nibbleOnly = false) (ha : AnswersAtOnce w c s)
    (hw : 4 ≤ w) (hc : 4 ≤ c) :
    ∃ t k, Runs 4 4 4 ((bytePayloads s.seq.curByte s.seq.plBl s.seq.plRs).map .nibblePayload) s t ∧ t.cfg = s.cfg ∧
      t.diag.lastByte = s.seq.curByte ∧
      t.seq = (transferEnd s.seq.active (s.withSeq { s.seq with waitStart := k, sub := .setup })).seq := by
  obtain ⟨u₁, r₁, c₁, q₁⟩ := run_raise hi ht hs ha (by omega) (by omega)
  have t₁ : Transfers u₁ := ht.congr (by rw [q₁]) (by rw [q₁])
  have a₁ := ha.of_runs r₁ (by omega) (by omega)
  obtain ⟨u₂, r₂, c₂, q₂⟩ := run_fallHigh (by rw [q₁, hi]) t₁ (by rw [q₁]) (by rw [q₁, hn]) (by rw [q₁]) a₁
    (by omega) (by omega)
  rw [q₁] at q₂
  have t₂ : Transfers u₂ := ht.congr (by rw [q₂]) (by rw [q₂])
  have a₂ := a₁.of_runs r₂ (by omega) (by omega)
  obtain ⟨u₃, r₃, c₃, q₃⟩ := run_raise (by rw [q₂, hi]) t₂ (by rw [q₂]) a₂ (by omega) (by omega)
  rw [q₂] at q₃
  have t₃ : Transfers u₃ := ht.congr (by rw [q₃]) (by rw [q₃])
  have a₃ := a₂.of_runs r₃ (by omega) (by omega)
  obtain ⟨t, r₄, c₄, b₄, q₄⟩ := run_fallLast (by rw [q₃, hi]) t₃ (by rw [q₃]) (.inl rfl) (by rw [q₃]) a₃
    (by omega) (by omega)
  have hrun := ((r₁.trans (devState_congr (by rw [q₁]) (by rw [q₁])) r₂).trans
    (devState_congr (by rw [q₂]) (by rw [q₂])) r₃).trans (devState_congr (by rw [q₃]) (by rw [q₃])) r₄
  refine ⟨t, u₃.env.now % tickModulus u₃, ?_, by rw [c₄, c₃, c₂, c₁], by rw [b₄, q₃], q₄.trans ?_⟩
  · convert hrun using 1
    simp [placed_of_transfers, bytePayloads, pay, nib, ht, t₁, t₂, t₃, hn, hs, q₁, q₂, q₃]
  · rw [q₃]
    refine transferEnd_seq_congr _ ?_
    simp [hn]

/-- The sequencer registers q after the transfer of b, before the handler ends it (R163, R169). -/
def Seq.afterTransfer (q : Seq) (b : Byte) (rs bl : Bool) (start : Nat) : Seq :=
  { q with
    curByte := b, curRs := rs, nibbleOnly := false, plBl := bl, plRs := rs, waitStart := start
    sub := .setup }

/-- A full byte in five transactions: a setup entry without a write, and the four pulses (R175, R177). The handler's state v at
the setup entry differs from s outside the sequencer registers. -/
theorem run_byte {w c : Nat} {b : Byte} {rs : Bool} (hi : s.seq.initialized = true) (ht : Transfers s)
    (hh : handler s = .ok (.ok, setupByte b rs v)) (hq : v.seq = s.seq) (ho : output v = output s)
    (hcons : Consumes 0 0 s v) (ha : AnswersAtOnce w c s) (hw : 4 ≤ w) (hc : 4 ≤ c) :
    ∃ t k, Runs 5 4 4 ((bytePayloads b v.cfg.backlight rs).map .nibblePayload) s t ∧ t.cfg = v.cfg ∧
      t.diag.lastByte = b ∧
      t.seq = (transferEnd s.seq.active (s.withSeq (s.seq.afterTransfer b rs v.cfg.backlight k))).seq := by
  obtain ⟨u, r, cu, qu, -, -⟩ := Runs.of_endProcess (ps := []) (execProcess_of_handler s hi hh)
    (ho.trans (List.append_nil _).symm) ⟨hcons.build, hcons.mem, hcons.i2c, hcons.timebase⟩
  have qu' : u.seq = (setupByte b rs (s.withCfg v.cfg)).seq := by rw [qu]; simp only [setupByte, State.withSeq_seq, hq]; rfl
  obtain ⟨t, k, r', ct, bt, qt⟩ := run_fourPulses (s := u) (by rw [qu']; exact hi)
    (ht.congr (by rw [qu']; rfl) (by rw [qu']; rfl)) (by rw [qu']; rfl) (by rw [qu']; rfl)
    (ha.of_runs r (by omega) (by omega)) hw hc
  refine ⟨t, k, ?_, ct.trans cu, bt.trans (by rw [qu']; rfl), qt.trans ?_⟩
  · have hrun := r.trans (devState_congr (by rw [qu']; rfl) (by rw [qu']; rfl)) r'
    rw [qu'] at hrun
    exact hrun
  · rw [qu']
    exact transferEnd_seq_congr _ rfl

/-! ## A single-byte command, and BACKLIGHT -/

/-- The first part of O55: the transfer of the command's byte, whose last transaction ends the command. -/
theorem run_byteCommand {b : Byte} (hi : s.seq.initialized = true) (hn : s.seq.nested = false)
    (hb : cmdByte s.seq.active s = some b) (hs : s.seq.sub = .setup) (ha : AnswersAtOnce 4 4 s) :
    ∃ t, Runs 5 4 4 ((bytePayloads b s.cfg.backlight false).map .nibblePayload) s t ∧ devState t = .ready ∧
      t.diag.lastByte = b := by
  have hsome : (cmdByte s.seq.active s).isSome = true := by rw [hb]; rfl
  obtain ⟨-, -, -, hp, -⟩ := cmdByte_isSome_iff.mp hsome
  obtain ⟨t, k, hrun, -, hlast, hseq⟩ := run_byte hi (.inl hsome) ((handler_of_cmdByte hb).trans (runByte_of_setup b hs))
    rfl rfl ⟨rfl, rfl, rfl, rfl⟩ ha le_rfl le_rfl
  refine ⟨t, hrun, ?_, hlast⟩
  have hend := hseq.trans (transferEnd_seq_of_not_nested hp hn)
  exact devState_ready.mpr (by rw [hend]; exact ⟨hi, rfl⟩)

/-- The second part of O55: the handler of BACKLIGHT makes its one write and ends the command. -/
theorem run_backlight (hi : s.seq.initialized = true) (ha : s.seq.active = .backlight) (hr : i2cEvent s = .ok) :
    ∃ t, Runs 1 1 0 [.backlightPayload (backlightByte s.cfg.backlight)] s t ∧ devState t = .ready := by
  obtain ⟨-, hb⟩ | ⟨hne, -⟩ := backlightHandler_cases (s := s)
  · have hh := handler_of_backlight ha
    rw [hb] at hh
    obtain ⟨t, hrun, -, hseq, -⟩ := Runs.of_endProcess (w := 1) (c := 0) (execProcess_of_handler s hi hh)
      (written_output hr _) ⟨rfl, rfl, List.drop_one.symm, rfl⟩
    refine ⟨t, ?_, devState_ready.mpr (by rw [hseq]; exact ⟨hi, rfl⟩)⟩
    simpa [placed, ha] using hrun
  · exact absurd hr hne

/-- Settles O55: the runs of a single-byte command and of BACKLIGHT, whose payloads are read back. -/
theorem byteCommandInFiveProcesses : Obligations.ByteCommandInFiveProcesses := by
  refine ⟨fun s b hi hn hb hs ha => ?_, fun s hi ha hr => ?_⟩
  · obtain ⟨t, hrun, hready, hlast⟩ := run_byteCommand hi hn hb hs ha
    have hproc : devState s = .processing := by
      obtain ⟨h0, h1, -⟩ := cmdByte_isSome_iff.mp (Option.isSome_of_eq_some hb)
      exact devState_processing.mpr ⟨hi, h0, h1⟩
    refine ⟨fun k hk => ?_, t, hrun.times, hready, hrun.status, hlast, ?_, ?_⟩
    · obtain ⟨u, hu, hd⟩ := hrun.within k (by omega)
      exact ⟨u, hu, hd.trans hproc⟩
    · rw [hrun.output, List.map_map]
      exact congrArg _ (List.map_id _)
    · have hback := reconstruct_bytePayloads_append b s.cfg.backlight false []
      rw [List.append_nil] at hback
      rw [hrun.placed, hback]
      rfl
  · obtain ⟨t, hrun, hready⟩ := run_backlight hi ha hr
    have hplaced : runOutput [.process] s = _ := hrun.placed
    refine ⟨⟨t, hrun.times, hready, hrun.status⟩, hplaced, ?_⟩
    rw [hplaced]
    exact reconstruct_append_backlightPayload _ [] []

/-! ## The bootstrap -/

/-- The setup entry of a probe, with its tick answered (R245). -/
theorem run_probeSetup {w c : Nat} (hi : s.seq.initialized = true) (hact : s.seq.active = .init)
    (h2 : s.seq.subStep.toNat ≤ 2) (hs : s.seq.sub = .setup) (ha : AnswersAtOnce w c s) (hc : 0 < c) :
    ∃ t, Runs 1 0 1 [] s t ∧ t.cfg = s.cfg ∧
      t.seq = { s.seq with
        curByte := probeByte, curRs := false, nibbleOnly := true, plBl := s.cfg.backlight, plRs := false
        waitStart := t.env.now % tickModulus t, sub := ⟨false, false, false, true⟩ } := by
  obtain ⟨d, hd, -⟩ := ha.timebaseEvent_eq hc
  have hh := handler_of_probe_setup hact h2 hs
  obtain ⟨k, hk, hp⟩ | ⟨hk, -⟩ := probeSetup_cases (s := s) probeByte
  · cases (tickAnswer_of_runs hd).symm.trans hk
    rw [hp] at hh
    obtain ⟨t, hrun, hcfg, hseq, -, hnow⟩ := Runs.of_endProcess (w := 0) (c := 1) (ps := [])
      (execProcess_of_handler s hi hh)
      ((afterTimebase_unaltered (c := tickCall s) rfl s).2.trans (List.append_nil _).symm)
      ⟨rfl, rfl, rfl, List.drop_one.symm⟩
    refine ⟨t, hrun, hcfg, hseq.trans ?_⟩
    rw [hnow, hrun.consumes.tickModulus_eq, ← afterTimebase_now_of_runs hd (tickCall s)]
    rfl
  · cases (tickAnswer_of_runs hd).symm.trans hk

/-- SETTLE with its time over: the check, the raise and its tick (R246). -/
theorem run_settle {w c : Nat} (hi : s.seq.initialized = true) (hact : s.seq.active = .init)
    (h2 : s.seq.subStep.toNat ≤ 2) (hs : s.seq.sub = ⟨false, false, false, true⟩)
    (hwait : s.seq.waitStart = s.env.now % tickModulus s) (ha : AnswersAtOnce w c s) (hw : 0 < w) (hc : 2 ≤ c) :
    ∃ t, Runs 1 1 2 [placed .process s (pay true s)] s t ∧ t.cfg = s.cfg ∧
      t.seq = { s.seq with waitStart := t.env.now % tickModulus t, sub := ⟨false, false, true, true⟩ } := by
  have hcheck : Consumes 0 1 s (afterTimebase (waitCall s) s) := ⟨rfl, rfl, rfl, List.drop_one.symm⟩
  have ha' := ha.of_consumes hcheck (by omega) (by omega)
  obtain ⟨d, hd, hle, hlt⟩ := ha.timebaseEvent_eq (by omega)
  obtain ⟨d', hd', -⟩ := ha'.timebaseEvent_eq (by omega)
  have hl := settleTime_of_probe h2
  have hsettle := settleStep_of_le hl (elapsedAnswer_of_runs hd hwait hlt) ((settleTime_le_tBoot hl).trans hle)
  obtain ⟨x, hx, hcfg, hseq, hout, hcons⟩ := raiseStep_answered (ha'.i2cEvent_eq hw) hd'
  rw [hx] at hsettle
  have hb : subState s.seq.sub = some .settle := by rw [hs]; rfl
  obtain ⟨t, hrun, htcfg, htseq, -, hnow⟩ := Runs.of_endProcess
    (execProcess_of_not_done hi (.inr (.inr ⟨hact, by omega⟩)) hb (by decide) hsettle rfl)
    (hout.trans (congrArg (· ++ _) (waitCall_unaltered s).2)) (hcheck.trans hcons)
  refine ⟨t, hrun, htcfg.trans hcfg, htseq.trans (hseq.trans ?_)⟩
  rw [hnow, hrun.consumes.tickModulus_eq, ← hcheck.tickModulus_eq, afterTimebase_seq, hs]

/-- The start of stage k of the bootstrap with configuration c (R242). -/
structure AtStage (k : BitVec 4) (c : DisplayConfig) (s : State) : Prop where
  initialized : s.seq.initialized = true
  active : s.seq.active = .init
  nested : s.seq.nested = true
  subStep : s.seq.subStep = k
  sub : s.seq.sub = .setup
  cfg : s.cfg = c

theorem AtStage.devState_eq {k : BitVec 4} {c : DisplayConfig} (h : AtStage k c s) : devState s = .initializing :=
  devState_initializing.mpr ⟨h.initialized, h.active⟩

/-- A transfer of a stage gives way to the next stage (R205). -/
theorem AtStage.next {k : BitVec 4} {c d : DisplayConfig} {b : Byte} {rs bl : Bool} {start : Nat} (h : AtStage k c s)
    (hc : t.cfg = d) (ht : t.seq = (transferEnd s.seq.active (s.withSeq (s.seq.afterTransfer b rs bl start))).seq) :
    AtStage (k + 1) d t := by
  obtain ⟨hi, hact, hnest, rfl, -, -⟩ := h
  have hq := ht.trans (transferEnd_seq_of_nested (by rw [hact]; decide) hnest)
  exact ⟨by rw [hq]; exact hi, by rw [hq]; exact hact, by rw [hq]; exact hnest, by rw [hq]; rfl, by rw [hq]; rfl, hc⟩

/-- A stage that sends a probe (R244). -/
theorem AtStage.run_probe {k : BitVec 4} {cfg : DisplayConfig} {w c : Nat} (h : AtStage k cfg s) (h2 : k.toNat ≤ 2)
    (ha : AnswersAtOnce w c s) (hw : 2 ≤ w) (hc : 4 ≤ c) :
    ∃ t, Runs 3 2 4 ((probePayloads cfg.backlight).map .probePayload) s t ∧ AtStage (k + 1) cfg t := by
  have ⟨hi, hact, _, hk, hs, hcfg⟩ := h
  rw [← hk] at h2
  have ht : Transfers s := .inr (.inr ⟨hact, by omega⟩)
  obtain ⟨u₁, r₁, c₁, q₁⟩ := run_probeSetup hi hact h2 hs ha (by omega)
  have a₁ := ha.of_runs r₁ (by omega) (by omega)
  obtain ⟨u₂, r₂, c₂, q₂⟩ := run_settle (by rw [q₁, hi]) (by rw [q₁, hact]) (by rwa [q₁]) (by rw [q₁]) (by rw [q₁]) a₁
    (by omega) (by omega)
  rw [q₁] at q₂
  have t₁ : Transfers u₁ := ht.congr (by rw [q₁]) (by rw [q₁])
  have t₂ : Transfers u₂ := ht.congr (by rw [q₂]) (by rw [q₂])
  obtain ⟨t, r₃, c₃, -, q₃⟩ := run_fallLast (by rw [q₂, hi]) t₂ (by rw [q₂]) (.inr (by rw [q₂])) (by rw [q₂])
    (a₁.of_runs r₂ (by omega) (by omega)) (by omega) (by omega)
  have hrun := (r₁.trans (devState_congr (by rw [q₁]) (by rw [q₁])) r₂).trans
    (devState_congr (by rw [q₂]) (by rw [q₂])) r₃
  have hhigh : probeByte.extractLsb' 4 4 = 0x3 := by decide
  refine ⟨t, ?_, h.next (b := probeByte) (rs := false) (bl := s.cfg.backlight) (start := u₂.env.now % tickModulus u₂)
    (c₃.trans (c₂.trans (c₁.trans hcfg))) (q₃.trans ?_)⟩
  · convert hrun using 1
    simp [placed_of_transfers, probePayloads, pay, nib, hhigh, t₁, t₂, q₁, q₂, hcfg]
  · rw [q₂]
    exact transferEnd_seq_congr _ rfl

/-- The byte that stage k of the bootstrap sends with configuration c (R248 to R252). -/
def stageByte (k : BitVec 4) (c : DisplayConfig) : Byte :=
  if k = 3 then select4Byte
  else if k = 4 then functionSetByte false c.twoLines c.font5x10
  else if k = 5 then displayControlByte false c.cursorVisible c.cursorBlink
  else if k = 6 then clearByte
  else entryModeByte (c.entryMode.getLsbD 1) (c.entryMode.getLsbD 0)

/-- The configuration after stage k: step 5 clears the display flag (R250). -/
def stageCfg (k : BitVec 4) (c : DisplayConfig) : DisplayConfig :=
  if k = 5 then { c with displayEnabled := false } else c

theorem AtStage.bootstrapByte_eq {k : BitVec 4} {c : DisplayConfig} (h : AtStage k c s) :
    bootstrapByte s = stageByte k c := by
  rw [← h.subStep, ← h.cfg]
  rfl

theorem AtStage.bootstrapCfg_eq {k : BitVec 4} {c : DisplayConfig} (h : AtStage k c s) :
    bootstrapCfg s = stageCfg k c := by
  rw [← h.subStep, ← h.cfg]
  rfl

/-- A stage that sends a full byte (R248 to R252). -/
theorem AtStage.run_byte {k : BitVec 4} {cfg : DisplayConfig} {w c : Nat} (h : AtStage k cfg s) (h3 : 3 ≤ k.toNat)
    (h7 : k.toNat ≤ 7) (ha : AnswersAtOnce w c s) (hw : 4 ≤ w) (hc : 4 ≤ c) :
    ∃ t, Runs 5 4 4 ((bytePayloads (stageByte k cfg) cfg.backlight false).map .nibblePayload) s t ∧
      AtStage (k + 1) (stageCfg k cfg) t := by
  have ⟨hi, hact, _, hk, hs, hcfg⟩ := h
  rw [← hk] at h3 h7
  obtain ⟨t, start, hrun, ht, -, hseq⟩ := Machine.run_byte hi (.inr (.inr ⟨hact, h7⟩))
    (handler_of_bootstrap_byte hact hs h3 h7) rfl rfl ⟨rfl, rfl, rfl, rfl⟩ ha hw hc
  rw [State.withCfg_cfg, bootstrapCfg_backlight, hcfg, h.bootstrapByte_eq] at hrun
  exact ⟨t, hrun, h.next (ht.trans h.bootstrapCfg_eq) hseq⟩

/-- The last stage ends the bootstrap, and makes no call (R253). -/
theorem AtStage.run_last {cfg : DisplayConfig} (h : AtStage 8 cfg s) :
    ∃ t, Runs 1 0 0 [] s t ∧ devState t = .ready ∧ t.cfg = cfg := by
  have ⟨hi, hact, _, hk, _, hcfg⟩ := h
  obtain ⟨t, hrun, ht, hseq, -⟩ := Runs.of_endProcess (w := 0) (c := 0) (ps := [])
    (execProcess_of_handler s hi ((handler_of_init hact).trans (bootstrapHandler_of_last (by rw [hk]; rfl))))
    (List.append_nil _).symm ⟨rfl, rfl, rfl, rfl⟩
  exact ⟨t, hrun, devState_ready.mpr (by rw [hseq]; exact ⟨hi, rfl⟩), ht.trans hcfg⟩

/-- The payloads of the three probes, each with its place. -/
def probeCodes (c : DisplayConfig) : List Code :=
  (probePayloads c.backlight).map .probePayload ++ (probePayloads c.backlight).map .probePayload
    ++ (probePayloads c.backlight).map .probePayload

/-- The payloads of the five bytes, each with its place. -/
def byteCodes (c : DisplayConfig) : List Code :=
  (bytePayloads 0x20 c.backlight false).map .nibblePayload
    ++ (bytePayloads (functionSetByte false c.twoLines c.font5x10) c.backlight false).map .nibblePayload
    ++ (bytePayloads (displayControlByte false c.cursorVisible c.cursorBlink) c.backlight false).map .nibblePayload
    ++ (bytePayloads 0x01 c.backlight false).map .nibblePayload
    ++ (bytePayloads (entryModeByte (c.entryMode.getLsbD 1) (c.entryMode.getLsbD 0)) c.backlight false).map
      .nibblePayload

/-- The payloads of the bootstrap are those of R254. -/
theorem bootstrapCodes_tableByte (c : DisplayConfig) :
    (probeCodes c ++ byteCodes c).map Code.tableByte = bootstrapPayloads c := rfl

/-- The payloads of the bootstrap read back as three probe nibbles and five bytes. -/
theorem reconstruct_bootstrapCodes (c : DisplayConfig) : reconstruct (probeCodes c ++ byteCodes c) =
    [.probe 0x3, .probe 0x3, .probe 0x3, .byte 0x20, .byte (functionSetByte false c.twoLines c.font5x10),
      .byte (displayControlByte false c.cursorVisible c.cursorBlink), .byte 0x01,
      .byte (entryModeByte (c.entryMode.getLsbD 1) (c.entryMode.getLsbD 0))] := by
  rw [probeCodes, byteCodes, ← List.append_nil (List.map _ (bytePayloads (entryModeByte _ _) _ _))]
  simp only [List.append_assoc, reconstruct_probePayloads_append, reconstruct_bytePayloads_append]
  rfl

/-- The stages of the probes. -/
theorem AtStage.run_probes {cfg : DisplayConfig} {w c : Nat} (h : AtStage 0 cfg s) (ha : AnswersAtOnce w c s)
    (hw : 6 ≤ w) (hc : 12 ≤ c) : ∃ t, Runs 9 6 12 (probeCodes cfg) s t ∧ AtStage 3 cfg t := by
  obtain ⟨u₁, r₁, h₁⟩ := h.run_probe (by decide) ha (by omega) (by omega)
  have a₁ := ha.of_runs r₁ (by omega) (by omega)
  obtain ⟨u₂, r₂, h₂⟩ := h₁.run_probe (by decide) a₁ (by omega) (by omega)
  have a₂ := a₁.of_runs r₂ (by omega) (by omega)
  obtain ⟨u₃, r₃, h₃⟩ := h₂.run_probe (by decide) a₂ (by omega) (by omega)
  exact ⟨u₃, (r₁.trans (h₁.devState_eq.trans h.devState_eq.symm) r₂).trans
    (h₂.devState_eq.trans h.devState_eq.symm) r₃, h₃⟩

/-- The stages of the full bytes. -/
theorem AtStage.run_bytes {cfg : DisplayConfig} {w c : Nat} (h : AtStage 3 cfg s) (ha : AnswersAtOnce w c s)
    (hw : 20 ≤ w) (hc : 20 ≤ c) :
    ∃ t, Runs 25 20 20 (byteCodes cfg) s t ∧ AtStage 8 { cfg with displayEnabled := false } t := by
  obtain ⟨u₁, r₁, h₁⟩ := h.run_byte (by decide) (by decide) ha (by omega) (by omega)
  have a₁ := ha.of_runs r₁ (by omega) (by omega)
  obtain ⟨u₂, r₂, h₂⟩ := h₁.run_byte (by decide) (by decide) a₁ (by omega) (by omega)
  have a₂ := a₁.of_runs r₂ (by omega) (by omega)
  obtain ⟨u₃, r₃, h₃⟩ := h₂.run_byte (by decide) (by decide) a₂ (by omega) (by omega)
  have a₃ := a₂.of_runs r₃ (by omega) (by omega)
  obtain ⟨u₄, r₄, h₄⟩ := h₃.run_byte (by decide) (by decide) a₃ (by omega) (by omega)
  have a₄ := a₃.of_runs r₄ (by omega) (by omega)
  obtain ⟨u₅, r₅, h₅⟩ := h₄.run_byte (by decide) (by decide) a₄ (by omega) (by omega)
  have hd {k d u} (h' : AtStage k d u) : devState u = devState s := h'.devState_eq.trans h.devState_eq.symm
  exact ⟨u₅, (((r₁.trans (hd h₁) r₂).trans (hd h₂) r₃).trans (hd h₃) r₄).trans (hd h₄) r₅, h₅⟩

/-- The bootstrap from its start (R254, R255). -/
theorem AtStage.run_bootstrap {cfg : DisplayConfig} (h : AtStage 0 cfg s) (ha : AnswersAtOnce 26 32 s) :
    ∃ t, Runs 35 26 32 (probeCodes cfg ++ byteCodes cfg) s t ∧ devState t = .ready ∧
      t.cfg = { cfg with displayEnabled := false } := by
  obtain ⟨u, r, hu⟩ := h.run_probes ha (by omega) (by omega)
  obtain ⟨v, r', hv⟩ := hu.run_bytes (ha.of_runs r (by omega) (by omega)) (by omega) (by omega)
  obtain ⟨t, r'', ht, hc⟩ := hv.run_last
  have hrun := (r.trans (hu.devState_eq.trans h.devState_eq.symm) r').trans
    (hv.devState_eq.trans h.devState_eq.symm) r''
  rw [List.append_nil] at hrun
  exact ⟨t, hrun, ht, hc⟩

/-- Settles O56: the run of the stages, whose payloads are read back. -/
theorem bootstrapWritesTwentySixPayloads : Obligations.BootstrapWritesTwentySixPayloads := by
  intro s hi hact hn hk hs ha
  obtain ⟨t, hrun, ht, hc⟩ := AtStage.run_bootstrap ⟨hi, hact, hn, hk, hs, rfl⟩ ha
  refine ⟨t, hrun.times, ht, hrun.status, hc, ?_, rfl, ?_⟩
  · rw [hrun.output, bootstrapCodes_tableByte]
  · rw [hrun.placed, reconstruct_bootstrapCodes]

/-! ## PRINT -/

theorem printNext_of_last (h : s.seq.par.index + 1 = s.seq.par.len) : printNext s = finish s := by
  rw [printNext_eq, if_pos h]

theorem printNext_of_more (h : s.seq.par.index + 1 ≠ s.seq.par.len) :
    printNext s = s.withSeq { s.seq with par := { s.seq.par with index := s.seq.par.index + 1 } } := by
  rw [printNext_eq, if_neg h]

/-- PRINT at the setup entry of a character, with the given bytes still to be sent (R296, R297). -/
structure Prints (bytes : List Byte) (s : State) : Prop where
  initialized : s.seq.initialized = true
  active : s.seq.active = .print
  sub : s.seq.sub = .setup
  len : s.seq.par.len.toNat = s.seq.par.index.toNat + bytes.length
  mem : ∀ j (h : j < bytes.length),
    memGet s.mem ((s.seq.par.buf.toNat + (s.seq.par.index.toNat + j)) % 2 ^ 32) = some bytes[j]

/-- The transfer of a character, which `printNext` ends. -/
theorem Prints.run_character {b : Byte} {bytes : List Byte} {w c : Nat} (h : Prints (b :: bytes) s)
    (ha : AnswersAtOnce w c s) (hw : 4 ≤ w) (hc : 4 ≤ c) :
    ∃ t k, Runs 5 4 4 ((bytePayloads b s.cfg.backlight true).map .nibblePayload) s t ∧ t.cfg = s.cfg ∧
      t.seq = (printNext (s.withSeq (s.seq.afterTransfer b true s.cfg.backlight k))).seq := by
  have hm : memGet s.mem (fetchAddr s).toNat = some b := by
    rw [fetchAddr_toNat]
    exact h.mem 0 (Nat.succ_pos _)
  obtain ⟨t, k, hrun, hcfg, -, hseq⟩ := run_byte h.initialized (.inr (.inl h.active)) (handler_of_fetch h.active h.sub hm)
    rfl rfl ⟨rfl, rfl, rfl, rfl⟩ ha hw hc
  rw [h.active, transferEnd_print] at hseq
  exact ⟨t, k, hrun, hcfg, hseq⟩

/-- The last character ends the command. -/
theorem Prints.run_last {b : Byte} {w c : Nat} (h : Prints [b] s) (ha : AnswersAtOnce w c s) (hw : 4 ≤ w)
    (hc : 4 ≤ c) :
    ∃ t, Runs 5 4 4 ((bytePayloads b s.cfg.backlight true).map .nibblePayload) s t ∧ devState t = .ready := by
  obtain ⟨t, k, hrun, -, hseq⟩ := h.run_character ha hw hc
  have hlen := h.len
  rw [List.length_singleton] at hlen
  have hlast : s.seq.par.index + 1 = s.seq.par.len := by bv_omega
  have hq := hseq.trans (congrArg State.seq (printNext_of_last hlast))
  exact ⟨t, hrun, devState_ready.mpr (by rw [hq]; exact ⟨h.initialized, rfl⟩)⟩

/-- A character before the last gives way to the next. -/
theorem Prints.run_next {b b' : Byte} {bytes : List Byte} {w c : Nat} (h : Prints (b :: b' :: bytes) s)
    (ha : AnswersAtOnce w c s) (hw : 4 ≤ w) (hc : 4 ≤ c) :
    ∃ t, Runs 5 4 4 ((bytePayloads b s.cfg.backlight true).map .nibblePayload) s t ∧ t.cfg = s.cfg ∧
      Prints (b' :: bytes) t := by
  obtain ⟨t, k, hrun, hcfg, hseq⟩ := h.run_character ha hw hc
  have hlen := h.len
  rw [List.length_cons, List.length_cons] at hlen
  have hmore : s.seq.par.index + 1 ≠ s.seq.par.len := by bv_omega
  have hindex : (s.seq.par.index + 1).toNat = s.seq.par.index.toNat + 1 := by bv_omega
  have hq := hseq.trans (congrArg State.seq (printNext_of_more hmore))
  have hpar : t.seq.par = { s.seq.par with index := s.seq.par.index + 1 } := by rw [hq]; rfl
  refine ⟨t, hrun, hcfg, ⟨by rw [hq]; exact h.initialized, by rw [hq]; exact h.active, by rw [hq]; rfl, ?_, ?_⟩⟩
  · rw [hpar, hindex, hlen, List.length_cons]
    omega
  · intro j hj
    have hm := h.mem (j + 1) (Nat.succ_lt_succ hj)
    rw [List.getElem_cons_succ] at hm
    rw [hpar, hrun.consumes.mem, hindex, Nat.add_assoc, Nat.add_comm 1 j]
    exact hm

/-- The payloads of characters (R177, R297). -/
def printPayloads (bl : Bool) (bytes : List Byte) : List Byte := bytes.flatMap (bytePayloads · bl true)

/-- PRINT of the rest of its characters. -/
theorem Prints.run {bytes : List Byte} (h : Prints bytes s) (hne : bytes ≠ [])
    (ha : AnswersAtOnce (4 * bytes.length) (4 * bytes.length) s) :
    ∃ t, Runs (5 * bytes.length) (4 * bytes.length) (4 * bytes.length)
      ((printPayloads s.cfg.backlight bytes).map .nibblePayload) s t ∧ devState t = .ready := by
  induction bytes generalizing s with
  | nil => exact absurd rfl hne
  | cons b rest ih =>
    cases rest with
    | nil => exact h.run_last ha le_rfl le_rfl
    | cons b' rest =>
      have hcount (m : Nat) : m * (b :: b' :: rest).length = m + m * (b' :: rest).length := by
        rw [List.length_cons, Nat.mul_succ, Nat.add_comm]
      rw [hcount 4] at ha
      obtain ⟨u, r, hcfg, hu⟩ := h.run_next ha (by omega) (by omega)
      have hau := ha.of_runs r (by omega) (by omega)
      rw [Nat.add_sub_cancel_left] at hau
      obtain ⟨t, r', ht⟩ := ih hu (List.cons_ne_nil _ _) hau
      refine ⟨t, ?_, ht⟩
      rw [hcfg] at r'
      rw [hcount 5, hcount 4, printPayloads, List.flatMap_cons, List.map_append]
      exact r.trans (devState_congr (hu.initialized.trans h.initialized.symm) (hu.active.trans h.active.symm)) r'

theorem printPayloads_length (bl : Bool) (bytes : List Byte) : (printPayloads bl bytes).length = 4 * bytes.length := by
  induction bytes with
  | nil => rfl
  | cons b rest ih =>
    rw [printPayloads, List.flatMap_cons, List.length_append, ← printPayloads, ih, List.length_cons, Nat.mul_succ,
      Nat.add_comm]
    rfl

/-- The payloads of characters read back as the characters. -/
theorem reconstruct_printPayloads (bl : Bool) (bytes : List Byte) :
    reconstruct ((printPayloads bl bytes).map .nibblePayload) = bytes.map .byte := by
  induction bytes with
  | nil => rfl
  | cons b rest ih =>
    rw [printPayloads, List.flatMap_cons, List.map_append, reconstruct_bytePayloads_append, ← printPayloads, ih]
    rfl

/-- Each payload of a character has RS = 1. -/
theorem rs_of_mem_printPayloads {bl : Bool} {bytes : List Byte} {p : Byte} (h : p ∈ printPayloads bl bytes) :
    p.getLsbD 0 = true := by
  obtain ⟨b, -, hp⟩ := List.mem_flatMap.mp h
  simp only [bytePayloads, List.mem_cons, List.not_mem_nil, or_false] at hp
  obtain rfl | rfl | rfl | rfl := hp <;> exact payloadByte_rs ..

/-- Settles O57: the run of the characters, whose payloads are read back. -/
theorem printSendsTheBuffer : Obligations.PrintSendsTheBuffer := by
  intro s bytes hne hi hact hs hlen hm ha
  obtain ⟨t, hrun, ht⟩ := Prints.run ⟨hi, hact, hs, hlen, hm⟩ hne ha
  refine ⟨t, printPayloads s.cfg.backlight bytes, hrun.times, ht, ?_, printPayloads_length _ _, hrun.placed,
    reconstruct_printPayloads _ _, fun p => rs_of_mem_printPayloads⟩
  rw [hrun.output, List.map_map]
  exact congrArg _ (List.map_id _)

end Sys2Proof.Machine
